-- ==== Sys2Proof/Word.lean ====
section
/-! DEFINITION. The widths of the spec: bytes, 16-bit operands, the 32-bit time limit (R12, R14, R28). -/

namespace Sys2Proof

/-- One byte: a command byte, a payload byte, a pixel byte (R12). -/
abbrev Byte := BitVec 8

/-- A 16-bit unsigned operand or wire value (R14). -/
abbrev W16 := BitVec 16

/-- The time limit handed to the transport, in milliseconds (R7, D29). -/
abbrev W32 := BitVec 32

end Sys2Proof
end

