-- ==== Sys2Proof/Config.lean ====
section
/-! DEFINITION. The data types of R19, the configuration record of R7 and R8, the constants of its second group,
and the free values: what the environment answers (R11) and what the spec calls unspecified. -/

namespace Sys2Proof

/-- `Color`, in the order of R19. -/
inductive Color where
  | black | white | red | alternateRed
deriving DecidableEq, Repr, Inhabited

/-- `ScanMode` (R19): the whole column range, or inset by one byte column on each edge. -/
inductive ScanMode where
  | wideScan | narrowScan
deriving DecidableEq, Repr, Inhabited

/-- `RAMBank` (R19): the plane a read targets; also the name of a plane of the display RAM (R93). -/
inductive Bank where
  | black | red
deriving DecidableEq, Repr, Inhabited

/-- The pattern strides of R19 and the "solid" sentinel. -/
inductive Stride where
  | p8 | p16 | p32 | p64 | p128 | p256 | solid
deriving DecidableEq, Repr, Inhabited

/-- What a `Tx` or an `Rx` reports (R11). The code is the transport's own and opaque (U13). -/
inductive TransportStatus where
  | ok
  | fail (code : Nat)
deriving DecidableEq, Repr, Inhabited

/-- The fields of the response frame other than the status (R22). -/
structure ResponseBody where
  p     : List Byte   -- `RSP.P`
  s     : List Byte   -- `RSP.S`
  data  : List Byte   -- `RSP.DATA`
  value : W16         -- `RSP.VALUE`
  col   : Int         -- `RSP.COL`
  row   : Int         -- `RSP.ROW`
deriving DecidableEq, Repr, Inhabited

/-- The registers of the reference peer (R93). -/
structure PeerRegs where
  xs   : Byte
  xe   : Byte
  ys   : W16
  ye   : W16
  cx   : Byte
  cy   : W16
  dem  : BitVec 3
  bank : Bank
deriving DecidableEq, Repr, Inhabited

/-- The configuration record (R7): group 1 (the handle's fields) and group 3 (the spec's parameters). It is strapped
and no request writes it (R9, R29). -/
structure Cfg where
  resX       : W16       -- `CFG.RES_X`
  resY       : W16       -- `CFG.RES_Y`
  depth      : BitVec 2  -- `CFG.DEPTH`
  scan       : ScanMode  -- `CFG.SCAN`
  timeout    : W32       -- `CFG.TIMEOUT`
  lineCs     : Nat       -- `CFG.LINE_CS`
  lineDc     : Nat       -- `CFG.LINE_DC`
  lineRst    : Nat       -- `CFG.LINE_RST`
  lineBusy   : Nat       -- `CFG.LINE_BUSY`
  transport  : Nat       -- `CFG.TRANSPORT`
  hasAct     : Bool      -- `HAS_ACT`
  hasText    : Bool      -- `HAS_TEXT_UNIT`
  patternSolid : BitVec 3  -- `PATTERN_SOLID`
  tempFirstByteIsHigh : Bool  -- `TEMP_FIRST_BYTE_IS_HIGH`
  voltLenGate   : Nat    -- `VOLT_LEN(0x03)`
  voltLenSource : Nat    -- `VOLT_LEN(0x04)`
  voltLenVcom   : Nat    -- `VOLT_LEN(0x2C)`
  polCs      : Bool      -- `POL_CS`: the physical level of the asserted state, true for high
  polDc      : Bool      -- `POL_DC`: the physical level of the command state
  polBusy    : Bool      -- `POL_BUSY`: the physical level of the busy state
deriving DecidableEq, Repr, Inhabited

/-- A well-formed configuration (R8); the two widths bound the resolutions. -/
def Cfg.wf (c : Cfg) : Bool :=
  c.resX.toNat % 8 == 0 && (c.depth == 1 || c.depth == 2)

namespace Config

/-- `DUMMY_READ_BYTES` (R7). -/
def dummyReadBytes : Nat := 2

/-- `UC2_FULL` (R7). -/
def uc2Full : Byte := 0xF7

/-- `BOOSTER` (R7). -/
def booster : List Byte := [0x80, 0x90, 0x90, 0x00]

/-- `TEMP_INTERNAL` (R7). -/
def tempInternal : Byte := 0x80

/-- `T_RST_LOW` in milliseconds (R7). -/
def tRstLow : Nat := 2

/-- `T_RST_HOLD` in milliseconds (R7). -/
def tRstHold : Nat := 10

/-- `T_POLL` in milliseconds (R7). -/
def tPoll : Nat := 2

/-- `USER_ID_LEN` (R7). -/
def userIdLen : Nat := 10

/-- `DEM_DEFAULT`: X increments, then Y increments (R116). -/
def demDefault : BitVec 3 := 0b011

/-- The strapped configuration of `State.reset`: configuration A of the spec's test vectors.
DESIGN CHOICE (log 1), unsafe: the spec leaves every strap to the platform. -/
def strapped : Cfg :=
  { resX := 128, resY := 296, depth := 1, scan := .wideScan, timeout := 1000
    lineCs := 0, lineDc := 1, lineRst := 2, lineBusy := 3, transport := 0
    hasAct := false, hasText := true, patternSolid := 6, tempFirstByteIsHigh := true
    voltLenGate := 1, voltLenSource := 1, voltLenVcom := 1
    polCs := false, polDc := false, polBusy := true }

/-- The status of the k-th transfer where the environment's script says nothing: a free value (R11, log 8). -/
opaque transportAnswer : Nat → TransportStatus

/-- The k-th received byte where the environment's script says nothing: a free value (R11, U8, log 8). -/
opaque receivedByte : Nat → Byte

/-- The k-th sample of the busy line where the environment's script says nothing: a free value (R11, log 8). -/
opaque busyAnswer : Nat → Bool

/-- The response fields that a request with a status other than `Ok` leaves unspecified (R22, U2, log 13). -/
opaque unspecifiedResponse : Nat → ResponseBody

/-- Peer registers whose value the spec leaves unspecified (R98, U11, log 11). -/
opaque unspecifiedPeer : Nat → PeerRegs

/-- The peer's busy condition where the spec leaves it unspecified (U4, log 11). -/
opaque unspecifiedBusy : Nat → Bool

end Config

end Sys2Proof
end

