-- ==== Sys2Proof/Syntax.lean ====
section
/-! DEFINITION. The presented items (request frames of R21, wire frames of R100), and `Instr`: one constructor per row
of spec/opcode_table.json, 29 host requests (R127) and 26 wire opcodes (R119). -/

namespace Sys2Proof

/-- A font (R293): glyph size in pixels and the table of 256 bitmaps. -/
structure Font where
  gw    : Nat
  gh    : Nat
  table : List (List Byte)
deriving DecidableEq, Repr, Inhabited

/-- The degenerate font of 0 by 0 pixels: 256 empty glyphs. -/
def Font.blank : Font := { gw := 0, gh := 0, table := List.replicate 256 [] }

/-- The request frame `REQ.*` (R21). -/
structure ReqFrame where
  tag  : Byte
  a0   : W16
  a1   : W16
  a2   : W16
  a3   : W16
  p    : Option (List Byte)
  s    : Option (List Byte)
  n    : Nat
  font : Font
deriving DecidableEq, Repr, Inhabited

/-- The request frame with every operand register zero, no buffer, no count and the blank font. -/
def ReqFrame.blank (tag : Byte) : ReqFrame :=
  { tag := tag, a0 := 0, a1 := 0, a2 := 0, a3 := 0, p := none, s := none, n := 0, font := Font.blank }

/-- The data phase of a wire frame (R100): bytes sent, or a number of bytes to receive. -/
inductive WireBody where
  | send (d : List Byte)
  | recv (k : Nat)
deriving DecidableEq, Repr, Inhabited

/-- A wire frame (R100): one command byte and its data phase. -/
structure WireFrame where
  cmd  : Byte
  body : WireBody
deriving DecidableEq, Repr, Inhabited

/-- What is presented to the engine: a host request (R10), or a wire frame handed to the framer with no request around it
(DESIGN CHOICE, log 6). The two number spaces are different (R127), so an item says which one it is of. -/
inductive Item where
  | request (f : ReqFrame)
  | wire (f : WireFrame)
deriving DecidableEq, Repr, Inhabited

/-- One constructor per row of spec/opcode_table.json. Operands of a request are the bits its encoder is wired to (R123);
operands of a wire opcode are its payload as R110 lays it out. -/
inductive Instr where
  -- wire opcodes (R119)
  | opGateScan (endRow : W16) (order : Byte)
  | opGateVoltage (data : List Byte)
  | opSourceVoltage (data : List Byte)
  | opBoosterSoftStart (d0 d1 d2 d3 : Byte)
  | opGateScanStart (startRow : W16)
  | opDataEntryMode (d0 : Byte)
  | opSwReset
  | opTempSensorSelect (d0 : Byte)
  | opTempRead
  | opMasterActivation
  | opUpdateControl1 (uc1 : W16)
  | opUpdateControl2 (d0 : Byte)
  | opWriteRamPrimary (data : List Byte)
  | opWriteRamSecondary (data : List Byte)
  | opReadRam (n : Nat)
  | opVcomVoltage (data : List Byte)
  | opReadUserId
  | opBorder (d0 : Byte)
  | opRamReadBank (d0 : Byte)
  | opRamXRange (xs xe : Byte)
  | opRamYRange (ys ye : W16)
  | opPatternSecondary (d0 : Byte)
  | opPatternPrimary (d0 : Byte)
  | opRamXCounter (x : Byte)
  | opRamYCounter (y : W16)
  | opNop
  -- host requests (R127)
  | send (c : Byte) (d : List Byte)
  | receive (c : Byte) (k : Nat)
  | gateScanRange (startRow endRow : W16)
  | updateCtrl1
  | updateCtrl2
  | border (color : Color)
  | patternFillPrimary (ps ss : BitVec 3) (color : Color)
  | patternFillSecondary (ps ss : BitVec 3) (color : Color)
  | dataEntryMode (mode : BitVec 3)
  | ramBankSelect (bank : Bank)
  | selectTempSensor
  | readTemperature
  | softwareReset
  | masterActivation
  | boosterSoftStart
  | readUserId
  | nop
  | setHRange (left width : W16)
  | setVRange (top height : W16)
  | setStartAddress (x y : W16)
  | resetFullRange
  | writeRegion (left top width height : W16) (p q : Option (List Byte))
  | readRegion (left top width height : W16) (wantP wantS : Bool)
  | reset
  | init
  | refresh
  | busyWait
  | printH (left top : W16) (font : Font) (str : List Byte)
  | printV (left top : W16) (font : Font) (str : List Byte)
deriving DecidableEq, Repr, Inhabited

end Sys2Proof
end

