-- ==== Sys2Proof/Machine/Operands.lean ====
section
/-! DEFINITION. Operand arithmetic and payload fields: byte order (R71), truncation (R14), alignment (R75), the pack
functions of R113 to R118, the unpack functions of R130, region and glyph byte counts, the text unit's cell arithmetic. -/

namespace Sys2Proof.Machine

/-! ### Codes of the enumerations (R19, D4) -/

/-- The 2-bit code of a colour (R19). -/
def colorCode : Color → BitVec 2
  | .black => 0
  | .white => 1
  | .red => 2
  | .alternateRed => 3

/-- The colour with a given code. -/
def colorOfCode (c : BitVec 2) : Color :=
  if c = 0 then .black else if c = 1 then .white else if c = 2 then .red else .alternateRed

/-- The 1-bit code of a bank (R19), as a byte with zeros above it (R110, opcode 0x41). -/
def bankCode : Bank → Byte
  | .black => 0
  | .red => 1

/-- The bank that bit 0 of a byte selects (R94, R123). -/
def bankOfBit (b : Bool) : Bank := if b then .red else .black

/-- The code of a stride; "solid" is the parameter `PATTERN_SOLID` (R19). -/
def strideCode (c : Cfg) : Stride → BitVec 3
  | .p8 => 0
  | .p16 => 1
  | .p32 => 2
  | .p64 => 3
  | .p128 => 4
  | .p256 => 5
  | .solid => c.patternSolid

/-- `VOLT_LEN(op)` (R7, R124); other opcodes have no such parameter. -/
def voltLen (c : Cfg) (op : Byte) : Nat :=
  if op = 0x03 then c.voltLenGate else if op = 0x04 then c.voltLenSource else c.voltLenVcom

/-! ### Bytes and truncation -/

/-- `lo8` of a 16-bit value (R13). -/
def lo8 (v : W16) : Byte := v.extractLsb' 0 8

/-- `hi8` of a 16-bit value (R13). -/
def hi8 (v : W16) : Byte := v.extractLsb' 8 8

/-- `le16`: low byte first (R13, R71). -/
def le16 (v : W16) : List Byte := [lo8 v, hi8 v]

/-- The 16-bit value whose low and high byte are given: `lo + 256 * hi` (R94, R130). -/
def ofLoHi (lo hi : Byte) : W16 := hi ++ lo

/-- `trunc_8` of an integer (R13, R14). -/
def trunc8 (v : Int) : Byte := BitVec.ofInt 8 v

/-- `trunc_16` of an integer (R13, R14). -/
def trunc16 (v : Int) : W16 := BitVec.ofInt 16 v

/-- A pixel coordinate or count is aligned when it is a multiple of 8 (R75). -/
def aligned (v : Nat) : Bool := v % 8 == 0

/-! ### Address window fields (R113, R114) -/

/-- `xs = trunc_8(left div 8)` (R113). -/
def xsField (left : Nat) : Byte := trunc8 (left / 8 : Nat)

/-- `xe = trunc_8((left + width) div 8 - 1)`, the difference taken in the integers (R113, R14). -/
def xeField (left width : Nat) : Byte := trunc8 (((left + width) / 8 : Nat) - 1)

/-- `ys = trunc_16(top)` (R114). -/
def ysField (top : Nat) : W16 := trunc16 top

/-- `ye = trunc_16(top + height - 1)`, the difference taken in the integers (R114, R14). -/
def yeField (top height : Nat) : W16 := trunc16 ((top + height : Nat) - 1)

/-- The byte of the X address counter, `trunc_8(x div 8)` (R113). -/
def cxField (x : Nat) : Byte := trunc8 (x / 8 : Nat)

/-- The byte count of a region, `n = (width div 8) * height`, a natural (R16). -/
def regionBytes (width height : Nat) : Nat := width / 8 * height

/-- A buffer that is present holds exactly `n` bytes (R23). -/
def bufferOk (n : Nat) : Option (List Byte) → Bool
  | none => true
  | some b => b.length == n

/-- The contract of `WRITE_REGION` (R23, R241). -/
def writeRegionOk (width height : W16) (p s : Option (List Byte)) : Bool :=
  bufferOk (regionBytes width.toNat height.toNat) p && bufferOk (regionBytes width.toNat height.toNat) s

/-! ### Register payloads (R115 to R118) -/

/-- One bit as a 16-bit number. -/
def bit16 (b : Bool) : W16 := if b then 1 else 0

/-- One bit as a byte. -/
def bit8 (b : Bool) : Byte := if b then 1 else 0

/-- `pack_uc1` (R115). -/
def packUc1 (bypP invP bypS invS scan : Bool) : W16 :=
  (bit16 scan <<< 15) ||| (bit16 invS <<< 7) ||| (bit16 bypS <<< 6) ||| (bit16 invP <<< 3) ||| (bit16 bypP <<< 2)

/-- The update-control-1 word the engine sends: secondary bypass is bit 0 of the depth, the scan bit is the scan mode
(R163). -/
def uc1Of (c : Cfg) : W16 :=
  packUc1 false false (c.depth.getLsbD 0) false (decide (c.scan = .narrowScan))

/-- `pack_border` (R117): the transition flag and the colour code. -/
def packBorder (color : Color) : Byte := 0x04 ||| (colorCode color).setWidth 8

/-- `base = (ss << 4) | ps` (R118). -/
def patternBase (ps ss : BitVec 3) : Byte := (ss.setWidth 8 <<< 4) ||| ps.setWidth 8

/-- `pack_pattern_primary` (R118). -/
def packPatternPrimary (ps ss : BitVec 3) (c : Color) : Byte :=
  patternBase ps ss ||| (bit8 ((colorCode c).getLsbD 0) <<< 7)

/-- `pack_pattern_secondary` (R118): the colour bit and the top bit of `ss` share bit 6. -/
def packPatternSecondary (ps ss : BitVec 3) (c : Color) : Byte :=
  patternBase ps ss ||| (bit8 ((colorCode c).getLsbD 1) <<< 6)

/-- The data entry mode byte: the 3-bit code, bits 7..3 zero (R116). -/
def packMode (mode : BitVec 3) : Byte := mode.setWidth 8

/-- The temperature (R172): two bytes assembled by `TEMP_FIRST_BYTE_IS_HIGH`, shifted right by 4. -/
def temperature (c : Cfg) (r : List Byte) : W16 :=
  let r0 := r.getD 0 0
  let r1 := r.getD 1 0
  (if c.tempFirstByteIsHigh then ofLoHi r1 r0 else ofLoHi r0 r1) >>> 4

/-! ### Unpack functions (R130), for a peer model or a trace checker -/

/-- `unpack_uc1`: (byp_p, inv_p, byp_s, inv_s, scan). -/
def unpackUc1 (w : W16) : Bool × Bool × Bool × Bool × Bool :=
  (w.getLsbD 2, w.getLsbD 3, w.getLsbD 6, w.getLsbD 7, w.getLsbD 15)

/-- `unpack_border`: (colour code, transition). -/
def unpackBorder (b : Byte) : BitVec 2 × Bool := (b.extractLsb' 0 2, b.getLsbD 2)

/-- `unpack_pattern_primary`: (ps, ss, bit 0 of the colour). -/
def unpackPatternPrimary (b : Byte) : BitVec 3 × BitVec 3 × Bool :=
  (b.extractLsb' 0 3, b.extractLsb' 4 3, b.getLsbD 7)

/-- `unpack_pattern_secondary`: (ps, the two low bits of ss, bit 6, which is `ss[2] OR c[1]`). -/
def unpackPatternSecondary (b : Byte) : BitVec 3 × BitVec 2 × Bool :=
  (b.extractLsb' 0 3, b.extractLsb' 4 2, b.getLsbD 6)

/-- `unpack_gate`: (end row, order). -/
def unpackGate (d0 d1 d2 : Byte) : W16 × Byte := (ofLoHi d0 d1, d2)

/-- `unpack_xrange`: (xs, xe), and (left, width) in pixels where `xs ≤ xe`. -/
def unpackXRange (d0 d1 : Byte) : Byte × Byte × Option (Nat × Nat) :=
  (d0, d1, if d0 ≤ d1 then some (8 * d0.toNat, 8 * (d1.toNat - d0.toNat + 1)) else none)

/-- `unpack_yrange`: (ys, ye), and (top, height) in rows where `ys ≤ ye`. -/
def unpackYRange (d0 d1 d2 d3 : Byte) : W16 × W16 × Option (Nat × Nat) :=
  let ys := ofLoHi d0 d1
  let ye := ofLoHi d2 d3
  (ys, ye, if ys ≤ ye then some (ys.toNat, ye.toNat - ys.toNat + 1) else none)

/-! ### Fonts and text (R293 to R298) -/

/-- `G = ceil(gw/8) * gh`, the bytes of one glyph (R293). -/
def glyphBytes (f : Font) : Nat := (f.gw + 7) / 8 * f.gh

/-- The glyph table contract: exactly 256 glyphs of `G` bytes (R23). -/
def fontOk (f : Font) : Bool :=
  f.table.length == 256 && f.table.all fun g => g.length == glyphBytes f

/-- The bytes sent for a character: its glyph, each byte complemented in place (R296). -/
def invertedGlyph (f : Font) (c : Byte) : List Byte := (f.table.getD c.toNat []).map fun g => g ^^^ 0xFF

/-- The cursor move of a control character, or `none` for a printable one (R294, R295). `down` is the change of `row`
that a line-feed makes: 1 in the horizontal variant, -1 in the vertical one. -/
def controlMove (down : Int) (c : Byte) (cur : Int × Int) : Option (Int × Int) :=
  if c = 0x08 then some (max (cur.1 - 1) 0, cur.2)
  else if c = 0x09 then some ((cur.1 / 4 + 1) * 4, cur.2)
  else if c = 0x0A then some (0, cur.2 + down)
  else if c = 0x0D then some (0, cur.2)
  else none

/-- The cell origin of the horizontal variant (R298). -/
def originH (left top : W16) (f : Font) (cur : Int × Int) : W16 × W16 :=
  (trunc16 (left.toNat + f.gw * cur.1), trunc16 (top.toNat + f.gh * cur.2))

/-- The cell origin of the vertical variant, axes swapped (R298). -/
def originV (left top : W16) (f : Font) (cur : Int × Int) : W16 × W16 :=
  (trunc16 (left.toNat + f.gw * cur.2), trunc16 (top.toNat + f.gh * cur.1))

end Sys2Proof.Machine
end

