-- ==== Sys2Proof/WellFormed.lean ====
section
/-! DEFINITION. Which instructions are well formed under a configuration: the buffer and glyph table contract of R23, the
text unit's presence (R126), the length parameter of the voltage opcodes (R124), and for the wire opcodes the constant
and reserved payload bits as R110 and R123 say the engine sends them. -/

namespace Sys2Proof

/-- The check of an instruction. Of the ill-formed ones a meaning stops on those of R23 and R126 only; a wire frame
whose payload is not what the engine's encoders send is still a frame (R122, R124). -/
def wellFormed (c : Cfg) : Instr → Bool
  | .opGateScan _ order => order == 0
  | .opGateVoltage d => d.length == c.voltLenGate
  | .opSourceVoltage d => d.length == c.voltLenSource
  | .opBoosterSoftStart d0 d1 d2 d3 => [d0, d1, d2, d3] == Config.booster
  | .opGateScanStart _ => true
  | .opDataEntryMode d0 => d0 &&& 0xF8 == 0
  | .opSwReset => true
  | .opTempSensorSelect d0 => d0 == Config.tempInternal
  | .opTempRead => true
  | .opMasterActivation => true
  | .opUpdateControl1 uc1 => uc1 &&& 0x7F33 == 0
  | .opUpdateControl2 d0 => d0 == Config.uc2Full
  | .opWriteRamPrimary _ => true
  | .opWriteRamSecondary _ => true
  | .opReadRam _ => true
  | .opVcomVoltage d => d.length == c.voltLenVcom
  | .opReadUserId => true
  | .opBorder d0 => d0 &&& 0xFC == 0x04
  | .opRamReadBank d0 => d0 &&& 0xFE == 0
  | .opRamXRange _ _ => true
  | .opRamYRange _ _ => true
  | .opPatternSecondary d0 => d0 &&& 0x88 == 0
  | .opPatternPrimary d0 => d0 &&& 0x08 == 0
  | .opRamXCounter _ => true
  | .opRamYCounter _ => true
  | .opNop => true
  | .send _ _ => true
  | .receive _ _ => true
  | .gateScanRange _ _ => true
  | .updateCtrl1 => true
  | .updateCtrl2 => true
  | .border _ => true
  | .patternFillPrimary _ _ _ => true
  | .patternFillSecondary _ _ _ => true
  | .dataEntryMode _ => true
  | .ramBankSelect _ => true
  | .selectTempSensor => true
  | .readTemperature => true
  | .softwareReset => true
  | .masterActivation => true
  | .boosterSoftStart => true
  | .readUserId => true
  | .nop => true
  | .setHRange _ _ => true
  | .setVRange _ _ => true
  | .setStartAddress _ _ => true
  | .resetFullRange => true
  | .writeRegion _ _ w h p s => Machine.writeRegionOk w h p s
  | .readRegion _ _ _ _ _ _ => true
  | .reset => true
  | .init => true
  | .refresh => true
  | .busyWait => true
  | .printH _ _ f _ => c.hasText && Machine.fontOk f
  | .printV _ _ f _ => c.hasText && Machine.fontOk f

end Sys2Proof
end

