-- ==== Sys2Proof/Decode.lean ====
section
/-! DEFINITION. Decoding of presented items, total and rejecting by name, and after it the encoder, both written from
R110, R119 and R127; and the host's two entry points over the numbers of spec/opcode_table.json. -/

namespace Sys2Proof

/-- Why an item has no instruction. -/
inductive Reject where
  /-- The request's tag is none of R127 (R126). -/
  | unknownTag (tag : Byte)
  /-- The command byte is none of R119 (R112, R122). -/
  | unassignedOpcode (cmd : Byte)
  /-- The data phase does not have the format of the opcode (R102 to R109). -/
  | payload (cmd : Byte)
  /-- No command byte at all (R100). -/
  | emptyFrame
deriving DecidableEq, Repr

/-- The request an operand frame stands for (R127). Operands that the request does not name are ignored (R21); an absent
`P` of `SEND` counts as empty (R140), and so does an absent string of the text requests (log 16). -/
def decodeRequest (f : ReqFrame) : Except Reject Instr :=
  match f.tag with
  | 0x00 => .ok (.send (f.a0.setWidth 8) (f.p.getD []))
  | 0x01 => .ok (.receive (f.a0.setWidth 8) f.n)
  | 0x02 => .ok (.gateScanRange f.a0 f.a1)
  | 0x03 => .ok .updateCtrl1
  | 0x04 => .ok .updateCtrl2
  | 0x05 => .ok (.border (Machine.colorOfCode (f.a0.setWidth 2)))
  | 0x06 => .ok (.patternFillPrimary (f.a0.setWidth 3) (f.a1.setWidth 3) (Machine.colorOfCode (f.a2.setWidth 2)))
  | 0x07 => .ok (.patternFillSecondary (f.a0.setWidth 3) (f.a1.setWidth 3) (Machine.colorOfCode (f.a2.setWidth 2)))
  | 0x08 => .ok (.dataEntryMode (f.a0.setWidth 3))
  | 0x09 => .ok (.ramBankSelect (Machine.bankOfBit (f.a0.getLsbD 0)))
  | 0x0A => .ok .selectTempSensor
  | 0x0B => .ok .readTemperature
  | 0x0C => .ok .softwareReset
  | 0x0D => .ok .masterActivation
  | 0x0E => .ok .boosterSoftStart
  | 0x0F => .ok .readUserId
  | 0x10 => .ok .nop
  | 0x11 => .ok (.setHRange f.a0 f.a2)
  | 0x12 => .ok (.setVRange f.a1 f.a3)
  | 0x13 => .ok (.setStartAddress f.a0 f.a1)
  | 0x14 => .ok .resetFullRange
  | 0x15 => .ok (.writeRegion f.a0 f.a1 f.a2 f.a3 f.p f.s)
  | 0x16 => .ok (.readRegion f.a0 f.a1 f.a2 f.a3 f.p.isSome f.s.isSome)
  | 0x17 => .ok .reset
  | 0x18 => .ok .init
  | 0x19 => .ok .refresh
  | 0x1A => .ok .busyWait
  | 0x1B => .ok (.printH f.a0 f.a1 f.font (f.p.getD []))
  | 0x1C => .ok (.printV f.a0 f.a1 f.font (f.p.getD []))
  | t => .error (.unknownTag t)

/-- The wire opcode a sent payload belongs to, by the formats W0 to W4 and WN (R102 to R107, R110). -/
def decodeWrite (cmd : Byte) (d : List Byte) : Except Reject Instr :=
  match cmd, d with
  | 0x01, [d0, d1, d2] => .ok (.opGateScan (Machine.ofLoHi d0 d1) d2)
  | 0x03, d => .ok (.opGateVoltage d)
  | 0x04, d => .ok (.opSourceVoltage d)
  | 0x0C, [d0, d1, d2, d3] => .ok (.opBoosterSoftStart d0 d1 d2 d3)
  | 0x0F, [d0, d1] => .ok (.opGateScanStart (Machine.ofLoHi d0 d1))
  | 0x11, [d0] => .ok (.opDataEntryMode d0)
  | 0x12, [] => .ok .opSwReset
  | 0x18, [d0] => .ok (.opTempSensorSelect d0)
  | 0x20, [] => .ok .opMasterActivation
  | 0x21, [d0, d1] => .ok (.opUpdateControl1 (Machine.ofLoHi d0 d1))
  | 0x22, [d0] => .ok (.opUpdateControl2 d0)
  | 0x24, d => .ok (.opWriteRamPrimary d)
  | 0x26, d => .ok (.opWriteRamSecondary d)
  | 0x2C, d => .ok (.opVcomVoltage d)
  | 0x3C, [d0] => .ok (.opBorder d0)
  | 0x41, [d0] => .ok (.opRamReadBank d0)
  | 0x44, [d0, d1] => .ok (.opRamXRange d0 d1)
  | 0x45, [d0, d1, d2, d3] => .ok (.opRamYRange (Machine.ofLoHi d0 d1) (Machine.ofLoHi d2 d3))
  | 0x46, [d0] => .ok (.opPatternSecondary d0)
  | 0x47, [d0] => .ok (.opPatternPrimary d0)
  | 0x4E, [d0] => .ok (.opRamXCounter d0)
  | 0x4F, [d0, d1] => .ok (.opRamYCounter (Machine.ofLoHi d0 d1))
  | 0x7F, [] => .ok .opNop
  | c, _ => .error (.payload c)

/-- The wire opcode a read of `k` bytes belongs to, by the formats RK and RD (R108, R109). -/
def decodeRead (cmd : Byte) (k : Nat) : Except Reject Instr :=
  if cmd = 0x1B ∧ k = 2 then .ok .opTempRead
  else if cmd = 0x2E ∧ k = Config.userIdLen then .ok .opReadUserId
  else if cmd = 0x27 ∧ Config.dummyReadBytes ≤ k then .ok (.opReadRam (k - Config.dummyReadBytes))
  else .error (.payload cmd)

/-- The 26 assigned command bytes, in the order of R119. -/
def assignedOpcodes : List Byte :=
  [0x01, 0x03, 0x04, 0x0C, 0x0F, 0x11, 0x12, 0x18, 0x1B, 0x20, 0x21, 0x22, 0x24] ++
  [0x26, 0x27, 0x2C, 0x2E, 0x3C, 0x41, 0x44, 0x45, 0x46, 0x47, 0x4E, 0x4F, 0x7F]

/-- The wire opcode of a frame: all 8 bits of the command byte select it (R112). -/
def decodeWire (f : WireFrame) : Except Reject Instr :=
  if f.cmd ∈ assignedOpcodes then
    match f.body with
    | .send d => decodeWrite f.cmd d
    | .recv k => decodeRead f.cmd k
  else .error (.unassignedOpcode f.cmd)

/-- The wire opcode of a run of sent bytes, the command byte first (R100, R112). -/
def decodeWireBytes : List Byte → Except Reject Instr
  | [] => .error .emptyFrame
  | c :: d => decodeWire { cmd := c, body := .send d }

/-- The instruction of a presented item. -/
def decode : Item → Except Reject Instr
  | .request f => decodeRequest f
  | .wire f => decodeWire f

/-- A write frame as an item. -/
def wireSend (cmd : Byte) (d : List Byte) : Item := .wire { cmd := cmd, body := .send d }

/-- A read frame as an item. -/
def wireRecv (cmd : Byte) (k : Nat) : Item := .wire { cmd := cmd, body := .recv k }

/-- A request frame as an item, its operands written over the blank frame of its tag. -/
def req (tag : Byte) (f : ReqFrame → ReqFrame) : Item := .request (f (ReqFrame.blank tag))

/-- A wanted plane of `READ_REGION` is a present buffer, its contents ignored (R245). -/
def wanted (b : Bool) : Option (List Byte) := if b then some [] else none

/-- The words of an instruction (R110, R127). -/
def encode : Instr → Item
  | .opGateScan r o => wireSend 0x01 (Machine.le16 r ++ [o])
  | .opGateVoltage d => wireSend 0x03 d
  | .opSourceVoltage d => wireSend 0x04 d
  | .opBoosterSoftStart d0 d1 d2 d3 => wireSend 0x0C [d0, d1, d2, d3]
  | .opGateScanStart r => wireSend 0x0F (Machine.le16 r)
  | .opDataEntryMode d0 => wireSend 0x11 [d0]
  | .opSwReset => wireSend 0x12 []
  | .opTempSensorSelect d0 => wireSend 0x18 [d0]
  | .opTempRead => wireRecv 0x1B 2
  | .opMasterActivation => wireSend 0x20 []
  | .opUpdateControl1 u => wireSend 0x21 (Machine.le16 u)
  | .opUpdateControl2 d0 => wireSend 0x22 [d0]
  | .opWriteRamPrimary d => wireSend 0x24 d
  | .opWriteRamSecondary d => wireSend 0x26 d
  | .opReadRam n => wireRecv 0x27 (Config.dummyReadBytes + n)
  | .opVcomVoltage d => wireSend 0x2C d
  | .opReadUserId => wireRecv 0x2E Config.userIdLen
  | .opBorder d0 => wireSend 0x3C [d0]
  | .opRamReadBank d0 => wireSend 0x41 [d0]
  | .opRamXRange xs xe => wireSend 0x44 [xs, xe]
  | .opRamYRange ys ye => wireSend 0x45 (Machine.le16 ys ++ Machine.le16 ye)
  | .opPatternSecondary d0 => wireSend 0x46 [d0]
  | .opPatternPrimary d0 => wireSend 0x47 [d0]
  | .opRamXCounter x => wireSend 0x4E [x]
  | .opRamYCounter y => wireSend 0x4F (Machine.le16 y)
  | .opNop => wireSend 0x7F []
  | .send c d => req 0x00 fun f => { f with a0 := c.setWidth 16, p := some d }
  | .receive c k => req 0x01 fun f => { f with a0 := c.setWidth 16, n := k }
  | .gateScanRange a b => req 0x02 fun f => { f with a0 := a, a1 := b }
  | .updateCtrl1 => req 0x03 id
  | .updateCtrl2 => req 0x04 id
  | .border c => req 0x05 fun f => { f with a0 := (Machine.colorCode c).setWidth 16 }
  | .patternFillPrimary ps ss c =>
    req 0x06 fun f => { f with a0 := ps.setWidth 16, a1 := ss.setWidth 16, a2 := (Machine.colorCode c).setWidth 16 }
  | .patternFillSecondary ps ss c =>
    req 0x07 fun f => { f with a0 := ps.setWidth 16, a1 := ss.setWidth 16, a2 := (Machine.colorCode c).setWidth 16 }
  | .dataEntryMode m => req 0x08 fun f => { f with a0 := m.setWidth 16 }
  | .ramBankSelect b => req 0x09 fun f => { f with a0 := (Machine.bankCode b).setWidth 16 }
  | .selectTempSensor => req 0x0A id
  | .readTemperature => req 0x0B id
  | .softwareReset => req 0x0C id
  | .masterActivation => req 0x0D id
  | .boosterSoftStart => req 0x0E id
  | .readUserId => req 0x0F id
  | .nop => req 0x10 id
  | .setHRange l w => req 0x11 fun f => { f with a0 := l, a2 := w }
  | .setVRange t h => req 0x12 fun f => { f with a1 := t, a3 := h }
  | .setStartAddress x y => req 0x13 fun f => { f with a0 := x, a1 := y }
  | .resetFullRange => req 0x14 id
  | .writeRegion l t w h p s => req 0x15 fun f => { f with a0 := l, a1 := t, a2 := w, a3 := h, p := p, s := s }
  | .readRegion l t w h p s =>
    req 0x16 fun f => { f with a0 := l, a1 := t, a2 := w, a3 := h, p := wanted p, s := wanted s }
  | .reset => req 0x17 id
  | .init => req 0x18 id
  | .refresh => req 0x19 id
  | .busyWait => req 0x1A id
  | .printH l t g x => req 0x1B fun f => { f with a0 := l, a1 := t, font := g, p := some x }
  | .printV l t g x => req 0x1C fun f => { f with a0 := l, a1 := t, font := g, p := some x }

/-! ### The numbers of spec/opcode_table.json -/

/-- Byte `k` of an instruction given as one number, bit 0 the least significant bit of the first byte. -/
def tableByte (w k : Nat) : Byte := BitVec.ofNat 8 (w >>> (8 * k))

/-- The 16-bit operand register whose low byte is byte `k`. -/
def tableReg (w k : Nat) : W16 := BitVec.ofNat 16 (w >>> (8 * k))

/-- How many payload bytes an opcode's format has (R102 to R107); for WN the voltage opcodes have `VOLT_LEN` and the bulk
opcodes none. -/
def payloadLength (cmd : Byte) : Nat :=
  match cmd with
  | 0x01 => 3
  | 0x03 | 0x04 | 0x2C => Machine.voltLen Config.strapped cmd
  | 0x0C | 0x45 => 4
  | 0x0F | 0x21 | 0x44 | 0x4F => 2
  | 0x11 | 0x18 | 0x22 | 0x3C | 0x41 | 0x46 | 0x47 | 0x4E => 1
  | _ => 0

/-- The item a number of the opcode table stands for (log 7). The table gives its rows one 8-bit number in two number
spaces (R120); a number that is a request tag is read as the request, any other as a command byte. Bytes after the first
are `A0` to `A3`, low byte first, for a request, and the payload for a frame; an opcode of a read format has no payload. -/
def itemOfTableWord (w : Nat) : Item :=
  let b := tableByte w 0
  if b.toNat ≤ 0x1C then
    .request { ReqFrame.blank b with a0 := tableReg w 1, a1 := tableReg w 3, a2 := tableReg w 5, a3 := tableReg w 7 }
  else if b = 0x2E then wireRecv b Config.userIdLen
  else if b = 0x27 then wireRecv b Config.dummyReadBytes
  else wireSend b ((List.range (payloadLength b)).map fun k => tableByte w (k + 1))

/-- The instruction the decoder reads from a table word. Every bit above `nbits` is zero. -/
def decodeTableWord (nbits w : Nat) : Option Instr :=
  match decode (itemOfTableWord (w % 2 ^ nbits)) with
  | .ok i => some i
  | .error _ => none

end Sys2Proof
end

