-- ==== Sys2Proof/Machine/State.lean ====
section
/-! DEFINITION. The state of the engine (R28, R34, R41, R47, R361), of the environment it reaches (R11) and of the
reference peer (R93), as plain data; the reasons a step can stop; the state after reset. -/

namespace Sys2Proof.Machine

/-- `LSTATE` (R30). -/
inductive LState where
  | poweredOff | resetting | awaitingReady | configuring | idle | updating
deriving DecidableEq, Repr, Inhabited

/-- `LINE.CS` (R28). -/
inductive CsLevel where
  | asserted | deasserted
deriving DecidableEq, Repr, Inhabited

/-- `LINE.DC` (R28). -/
inductive DcLevel where
  | command | data
deriving DecidableEq, Repr, Inhabited

/-- `LINE.RST` (R28); its levels are physical (R261). -/
inductive RstLevel where
  | low | high
deriving DecidableEq, Repr, Inhabited

/-- `LINE.ACT` (R28, R147). -/
inductive ActLevel where
  | on | off
deriving DecidableEq, Repr, Inhabited

/-- The statuses of R320. -/
inductive Status where
  | ok
  | alignmentError
  | transportError (code : Nat)
  | sequenceError
deriving DecidableEq, Repr, Inhabited

/-- The events of the observable trace (R11). A transfer carries the time limit `CFG.TIMEOUT` and the status the transport
gave it; the bytes of a failing `Rx` are unspecified and none are recorded (log 17). -/
inductive Event where
  | cs (l : CsLevel)
  | dc (l : DcLevel)
  | rst (l : RstLevel)
  | act (l : ActLevel)
  | busy (asserted : Bool)
  | tx (timeout : W32) (bytes : List Byte) (st : TransportStatus)
  | rx (timeout : W32) (n : Nat) (st : TransportStatus) (bytes : List Byte)
  | delay (ms : Nat)
deriving DecidableEq, Repr, Inhabited

/-- `SEQ` (R24): the running request's tag and the index of its next event. -/
structure Seq where
  tag   : Byte
  index : Nat
deriving DecidableEq, Repr, Inhabited

/-- The output lines (R34). -/
structure Lines where
  cs  : CsLevel
  dc  : DcLevel
  rst : RstLevel
  act : ActLevel
deriving DecidableEq, Repr, Inhabited

/-- The shadow registers and their valid bits (R41). -/
structure Shadow where
  xs  : Byte
  xe  : Byte
  ys  : W16
  ye  : W16
  cx  : Byte
  cy  : W16
  hv  : Bool
  vv  : Bool
  cxv : Bool
  cyv : Bool
deriving DecidableEq, Repr, Inhabited

/-- The response frame (R22). -/
structure Response where
  status : Status
  body   : ResponseBody
deriving DecidableEq, Repr, Inhabited

/-- What the environment answers (R11), as scripts and how much of each is used; past a script the answer is a free value
of Config (log 8). `refPeer` says that the reference peer is attached (log 9). -/
structure Env where
  xfer    : List TransportStatus
  xferPos : Nat
  bytes   : List Byte
  bytePos : Nat
  busy    : List Bool
  busyPos : Nat
  refPeer : Bool
deriving DecidableEq, Repr, Inhabited

/-- The reference peer (R93). `ram` lists the bytes whose value is known, addresses strictly rising; an unlisted address
reads as no value (log 10). `free` counts the free values drawn for it (log 11). -/
structure Peer where
  regs : PeerRegs
  busy : Bool
  ram  : List Host.Cell
  free : Nat
deriving DecidableEq, Repr, Inhabited

/-- The whole state. `port`, `trace`, `env` and `free` are the model's own fields (logs 5, 8, 13, 20). -/
structure State where
  cfg    : Cfg
  lstate : LState
  seq    : Option Seq
  line   : Lines
  sh     : Shadow
  req    : ReqFrame
  rsp    : Response
  port   : List Item
  env    : Env
  peer   : Peer
  trace  : List (LState × Event)
  free   : Nat
deriving DecidableEq, Repr, Inhabited

/-- Why the machine stops. The engine has no fault of its own (93, end of section 1). -/
inductive Fault where
  /-- Raised by `step` in a state whose sequencer position names a request that never waits (R25, R33); no run reaches such
  a state, so the fault is safe (log 18). -/
  | sequencerLost
deriving DecidableEq, Repr

/-- Why an item has no meaning. -/
inductive Refusal where
  /-- Raised by `exec` for an instruction that has no meaning yet; safe. -/
  | notModelled (mnemonic : String)
  /-- Raised by `step` on a configuration that is not well formed, on which no request ever runs (R8); safe. -/
  | illFormedConfig
  /-- Raised by `step` on a presented item that is no request and no assigned frame (R112, R126); safe. -/
  | noSuchItem (tag : Byte)
  /-- Raised by `execWriteRegion` on a buffer that breaks the length contract (R23, U7); safe. -/
  | bufferLength
  /-- Raised by `execPrintH` and `execPrintV` on a glyph table that breaks the contract (R23, U7); safe. -/
  | glyphTable
  /-- Raised by `execPrintH` and `execPrintV` on an engine without the text unit (R126); safe. -/
  | textUnitAbsent
deriving DecidableEq, Repr

/-- The idle levels of the output lines (R34). -/
def Lines.idle : Lines := { cs := .deasserted, dc := .data, rst := .high, act := .off }

/-- The shadows after engine reset: invalid (R47); the values are a DESIGN CHOICE (log 2), unsafe. -/
def Shadow.atReset : Shadow :=
  { xs := 0, xe := 0, ys := 0, ye := 0, cx := 0, cy := 0, hv := false, vv := false, cxv := false, cyv := false }

/-- The response fields at reset: unspecified (R47); DESIGN CHOICE (log 2), unsafe. -/
def bodyAtReset : ResponseBody := { p := [], s := [], data := [], value := 0, col := 0, row := 0 }

/-- The environment at reset: nothing scripted, so every answer is a free value, and no peer attached (logs 8, 9). -/
def Env.atReset : Env :=
  { xfer := [], xferPos := 0, bytes := [], bytePos := 0, busy := [], busyPos := 0, refPeer := false }

/-- The peer at reset: unspecified (R362); no byte of RAM is known, the registers are a DESIGN CHOICE (log 3), unsafe. -/
def Peer.atReset : Peer :=
  { regs := { xs := 0, xe := 0, ys := 0, ye := 0, cx := 0, cy := 0, dem := 0, bank := .black }
    busy := false, ram := [], free := 0 }

/-- The engine as it comes into being with a configuration (R47, R360, R361). -/
def State.resetWith (c : Cfg) : State :=
  { cfg := c, lstate := .poweredOff, seq := none, line := .idle, sh := .atReset, req := .blank 0
    rsp := { status := .ok, body := bodyAtReset }, port := [], env := .atReset, peer := .atReset, trace := [], free := 0 }

/-- Construction with a configuration: an ill-formed one is refused (R8). -/
def State.construct (c : Cfg) : Option State := if c.wf then some (State.resetWith c) else none

/-- The machine right after reset (R361), with the strapped configuration of log 1. -/
def State.reset : State := State.resetWith Config.strapped

end Sys2Proof.Machine
end

