-- ==== Sys2Proof/Machine/Flags.lean ====
section
/-! DEFINITION. The engine has no flags (R27). This file holds what stands nearest: the numeric codes of `LSTATE` and of
the statuses (R30, R320), the valid bits of the shadows (R41 to R44) and the physical levels of the lines (R34, D8). -/

namespace Sys2Proof.Machine

/-- The 3-bit code of `LSTATE` (R30). -/
def lstateCode : LState → BitVec 3
  | .poweredOff => 0
  | .resetting => 1
  | .awaitingReady => 2
  | .configuring => 3
  | .idle => 4
  | .updating => 5

/-- The numeric code of a status (R320). -/
def statusCode : Status → Nat
  | .ok => 0
  | .alignmentError => 1
  | .transportError _ => 2
  | .sequenceError => 3

/-- All four valid bits cleared (R44). -/
def Shadow.invalidate (h : Shadow) : Shadow := { h with hv := false, vv := false, cxv := false, cyv := false }

/-- The counter shadows invalidated, as a bulk frame starts (R43). -/
def Shadow.invalidateCounter (h : Shadow) : Shadow := { h with cxv := false, cyv := false }

/-- The horizontal group after a frame 0x44 (R42, R44, R224). -/
def Shadow.afterX (st : Status) (xs xe : Byte) (h : Shadow) : Shadow :=
  if st = .ok then { h with xs := xs, xe := xe, hv := true } else { h with hv := false }

/-- The vertical group after a frame 0x45 (R42, R44, R225). -/
def Shadow.afterY (st : Status) (ys ye : W16) (h : Shadow) : Shadow :=
  if st = .ok then { h with ys := ys, ye := ye, vv := true } else { h with vv := false }

/-- The X counter group after a frame 0x4E (R42, R44, R226). -/
def Shadow.afterCx (st : Status) (x : Byte) (h : Shadow) : Shadow :=
  if st = .ok then { h with cx := x, cxv := true } else { h with cxv := false }

/-- The Y counter group after a frame 0x4F (R42, R44, R226). -/
def Shadow.afterCy (st : Status) (y : W16) (h : Shadow) : Shadow :=
  if st = .ok then { h with cy := y, cyv := true } else { h with cyv := false }

/-- The physical level of chip-select, true for high (R7, `POL_CS`). -/
def pinCs (s : State) : Bool := if s.line.cs = .asserted then s.cfg.polCs else !s.cfg.polCs

/-- The physical level of data/command, true for high (R7, `POL_DC`). -/
def pinDc (s : State) : Bool := if s.line.dc = .command then s.cfg.polDc else !s.cfg.polDc

/-- The physical level of the reset line, true for high (R261). -/
def pinRst (s : State) : Bool := decide (s.line.rst = .high)

/-- The logical level of the busy line from its physical one (R7, `POL_BUSY`): true for asserted. -/
def busyOfPin (c : Cfg) (high : Bool) : Bool := high == c.polBusy

end Sys2Proof.Machine
end

