-- ==== Sys2Proof/Machine/Memory.lean ====
section
/-! DEFINITION. The display RAM of the reference peer (R61, R93) as a list of known bytes in one canonical form: addresses
strictly rising and inside the 25-bit space. An unlisted address reads as no value, so no listed byte equals it. -/

namespace Sys2Proof.Machine

/-- The number of addresses of the display RAM: two planes of 256 byte columns and 65536 rows (R93). -/
def ramSize : Nat := 2 ^ 25

/-- The cell of byte column `x` and row `y` of a plane (R61). -/
def ramAddr (plane : Bank) (x : Byte) (y : W16) : Nat :=
  (if plane = .red then 2 ^ 24 else 0) + y.toNat * 256 + x.toNat

/-- The canonical form. -/
abbrev Memory.wf (m : List Host.Cell) : Prop :=
  m.Pairwise (fun a b => a.1 < b.1) ∧ ∀ c ∈ m, c.1 < ramSize

/-- The known byte at an address: `MemRead` (R13). -/
def ramRead : List Host.Cell → Nat → Option Byte
  | [], _ => none
  | (k, v) :: m, a => if k = a then some v else ramRead m a

/-- One byte stored: `MemWrite` (R13). -/
def ramWrite : List Host.Cell → Nat → Byte → List Host.Cell
  | [], a, b => [(a, b)]
  | (k, v) :: m, a, b =>
    if a < k then (a, b) :: (k, v) :: m
    else if a = k then (a, b) :: m
    else (k, v) :: ramWrite m a b

/-- One byte forgotten. -/
def ramErase (a : Nat) (m : List Host.Cell) : List Host.Cell := m.filter fun c => c.1 ≠ a

/-- Whether a cell belongs to a plane. -/
def inPlane (plane : Bank) (a : Nat) : Bool :=
  if plane = .red then 2 ^ 24 ≤ a else a < 2 ^ 24

/-- Every byte of a plane forgotten. -/
def ramForget (plane : Bank) (m : List Host.Cell) : List Host.Cell := m.filter fun c => !inPlane plane c.1

end Sys2Proof.Machine
end

