-- ==== Sys2Proof/Machine/PeerModel.lean ====
section
/-! DEFINITION. The reference peer's effects (R92 to R98). Where the spec says "any value" of the peer (U3, U4, U5, U10,
U16), or says nothing of a frame at all, its registers become free values and its bytes unknown (log 11, DESIGN CHOICE). -/

namespace Sys2Proof.Machine

/-- Every modelled register unspecified, RAM and busy kept (R98, R363). -/
def Peer.forgetRegs (p : Peer) : Peer :=
  { p with regs := Config.unspecifiedPeer p.free, free := p.free + 1 }

/-- Everything about the peer unspecified (U3, U4, U5). -/
def Peer.forgetAll (p : Peer) : Peer :=
  { regs := Config.unspecifiedPeer p.free, busy := Config.unspecifiedBusy p.free, ram := [], free := p.free + 1 }

/-- The counter unspecified. -/
def Peer.forgetCounter (p : Peer) : Peer :=
  { p with regs := { p.regs with cx := (Config.unspecifiedPeer p.free).cx, cy := (Config.unspecifiedPeer p.free).cy },
           free := p.free + 1 }

/-- The bytes of one plane unknown (N9, log 12). -/
def Peer.forgetPlane (b : Bank) (p : Peer) : Peer := { p with ram := ramForget b p.ram }

/-- The reference peer is defined where the counter stands inside the window (U5). -/
def inWindow (r : PeerRegs) : Bool := r.xs ≤ r.cx && r.cx ≤ r.xe && r.ys ≤ r.cy && r.cy ≤ r.ye

/-- The X step: up when bit 0 of the data entry mode is 1, else down (R96). -/
def stepX (r : PeerRegs) : Byte := if r.dem.getLsbD 0 then r.cx + 1 else r.cx - 1

/-- The Y step: up when bit 1 of the data entry mode is 1, else down (R96). -/
def stepY (r : PeerRegs) : W16 := if r.dem.getLsbD 1 then r.cy + 1 else r.cy - 1

/-- `advance` (R96): PRESUMED by the spec from general knowledge (G1, log 23). -/
def advance (r : PeerRegs) : PeerRegs :=
  if r.dem.getLsbD 2 then
    if r.cy = r.ye then { r with cy := r.ys, cx := if r.cx = r.xe then r.xs else stepX r }
    else { r with cy := stepY r }
  else
    if r.cx = r.xe then { r with cx := r.xs, cy := if r.cy = r.ye then r.ys else stepY r }
    else { r with cx := stepX r }

/-! ### Formats -/

/-- The payload length of an opcode that is sent with a fixed one (R102 to R106). -/
def fixedLength (c : Byte) : Option Nat :=
  if c ∈ ([0x12, 0x20, 0x7F] : List Byte) then some 0
  else if c ∈ ([0x11, 0x18, 0x22, 0x3C, 0x41, 0x46, 0x47, 0x4E] : List Byte) then some 1
  else if c ∈ ([0x0F, 0x21, 0x44, 0x4F] : List Byte) then some 2
  else if c = 0x01 then some 3
  else if c ∈ ([0x0C, 0x45] : List Byte) then some 4
  else none

/-- A payload that fits its opcode's format: the fixed length, any length for WN (R107; for the voltages log 28), and
nothing for a read of no byte (R97). What the peer makes of any other payload is the model's choice, "any value" (log 11,
DESIGN CHOICE). -/
def fitsWrite (c : Byte) (d : List Byte) : Bool :=
  if c ∈ ([0x03, 0x04, 0x24, 0x26, 0x2C] : List Byte) then true
  else if c = 0x27 then d.isEmpty
  else fixedLength c == some d.length

/-- A read that fits its opcode's format (R108); one of 0x27 does for every length (R97). What the peer makes of any other
read, such as one of an opcode that is sent, is the model's choice, "any value" (log 11, DESIGN CHOICE). -/
def fitsRead (c : Byte) (k : Nat) : Bool := c == 0x27 || (c == 0x1B && k == 2) || (c == 0x2E && k == Config.userIdLen)

/-! ### Bulk transfers -/

/-- One byte of a bulk write (R95). -/
def Peer.writeByte (plane : Bank) (b : Byte) (p : Peer) : Peer :=
  if inWindow p.regs then
    { p with ram := ramWrite p.ram (ramAddr plane p.regs.cx p.regs.cy) b, regs := advance p.regs }
  else p.forgetAll

/-- The bytes of a bulk write, one after another (R95). -/
def Peer.writeBytes (plane : Bank) : List Byte → Peer → Peer
  | [], p => p
  | b :: bs, p => Peer.writeBytes plane bs (p.writeByte plane b)

/-- A bulk write. With the counter outside the window everything is "any value" even where no byte follows: U5 says so of
the peer as a whole, and that it takes hold at the bulk frame is the model's choice (log 11, DESIGN CHOICE). -/
def Peer.writeBulk (plane : Bank) (d : List Byte) (p : Peer) : Peer :=
  if inWindow p.regs then p.writeBytes plane d else p.forgetAll

/-- One data byte of a bulk read (R97). A byte whose value is not known is the environment's, and known from then on
(R93, log 10). -/
def Peer.readByte (raw : Byte) (p : Peer) : Byte × Peer :=
  if inWindow p.regs then
    let a := ramAddr p.regs.bank p.regs.cx p.regs.cy
    match ramRead p.ram a with
    | some b => (b, { p with regs := advance p.regs })
    | none => (raw, { p with ram := ramWrite p.ram a raw, regs := advance p.regs })
  else (raw, p.forgetAll)

/-- The data bytes of a bulk read, one for each byte the environment offers (R97). -/
def Peer.readBytes : List Byte → Peer → List Byte × Peer
  | [], p => ([], p)
  | raw :: raws, p =>
    let a := p.readByte raw
    let b := Peer.readBytes raws a.2
    (a.1 :: b.1, b.2)

/-- A bulk read: the dummy bytes are the environment's and do not move the counter (R97). For the counter outside the
window see `Peer.writeBulk`. -/
def Peer.readBulk (raws : List Byte) (p : Peer) : List Byte × Peer :=
  if inWindow p.regs then
    let r := Peer.readBytes (raws.drop Config.dummyReadBytes) p
    (raws.take Config.dummyReadBytes ++ r.1, r.2)
  else (raws, p.forgetAll)

/-- The addresses that `n` bytes from the counter on reach, each given to `access`. -/
def Peer.visit (plane : Bank) (access : Nat → List Host.Cell → List Host.Cell) : Nat → Peer → Peer
  | 0, p => p
  | n + 1, p =>
    Peer.visit plane access n
      (if inWindow p.regs then
        { p with ram := access (ramAddr plane p.regs.cx p.regs.cy) p.ram, regs := advance p.regs }
      else p.forgetAll)

/-- A bulk frame of `n` data bytes that failed: the counter is any value, and everything is where the counter stands outside
the window or leaves it (U5, U10). -/
def Peer.touchBulk (plane : Bank) (access : Nat → List Host.Cell → List Host.Cell) (n : Nat) (p : Peer) : Peer :=
  if inWindow p.regs then (p.visit plane access n).forgetCounter else p.forgetAll

/-! ### Resets -/

/-- The software reset of the peer (R98): registers unspecified, RAM kept, busy. -/
def Peer.softReset (p : Peer) : Peer := { p.forgetRegs with busy := true }

/-- The hardware reset of the peer (R363): registers unspecified, RAM kept; busy unchanged (log 27). -/
def Peer.hardReset (p : Peer) : Peer := p.forgetRegs

/-! ### Frames -/

/-- The effect of a whole frame that is not bulk and fits its format (R94, R98). A pattern fill makes its plane's bytes
unknown (log 12) and the peer busy (R81). The other opcodes reach no register that the reference peer models (R93). -/
def Peer.acceptRegister (c : Byte) (d : List Byte) (p : Peer) : Peer :=
  let b := fun i => d.getD i 0
  if c = 0x44 then { p with regs := { p.regs with xs := b 0, xe := b 1 } }
  else if c = 0x45 then { p with regs := { p.regs with ys := ofLoHi (b 0) (b 1), ye := ofLoHi (b 2) (b 3) } }
  else if c = 0x4E then { p with regs := { p.regs with cx := b 0 } }
  else if c = 0x4F then { p with regs := { p.regs with cy := ofLoHi (b 0) (b 1) } }
  else if c = 0x11 then { p with regs := { p.regs with dem := (b 0).setWidth 3 } }
  else if c = 0x41 then { p with regs := { p.regs with bank := bankOfBit ((b 0).getLsbD 0) } }
  else if c = 0x12 then p.softReset
  else if c = 0x20 then { p with busy := true }
  else if c = 0x46 then { p.forgetPlane .red with busy := true }
  else if c = 0x47 then { p.forgetPlane .black with busy := true }
  else p

/-- The effect of a write frame that ended `Ok` (R94, R95, R98). A frame sent while the peer is busy (U4), an unassigned
opcode (U3) and a payload that does not fit (log 11) leave everything about the peer unspecified. -/
def Peer.accept (c : Byte) (d : List Byte) (p : Peer) : Peer :=
  if p.busy || !fitsWrite c d then p.forgetAll
  else if c = 0x24 then p.writeBulk .black d
  else if c = 0x26 then p.writeBulk .red d
  else p.acceptRegister c d

/-- What a read frame that ended `Ok` returns, given the bytes the environment offers, and its effect (R97). A frame while
busy (U4), an unassigned opcode (U3) and a read that does not fit its opcode (log 11, DESIGN CHOICE: the spec says nothing
of a read of an opcode that is sent) leave everything about the peer unspecified. -/
def Peer.supply (c : Byte) (raws : List Byte) (p : Peer) : List Byte × Peer :=
  if p.busy || !fitsRead c raws.length then (raws, p.forgetAll)
  else if c = 0x27 then p.readBulk raws
  else (raws, p)

/-- The effect of a failing frame on what it could have touched (U10, U16, R70), for a frame that is not bulk and fits its
format. -/
def Peer.touchRegister (c : Byte) (p : Peer) : Peer :=
  let f := Config.unspecifiedPeer p.free
  let b := Config.unspecifiedBusy p.free
  let q := { p with free := p.free + 1 }
  if c = 0x44 then { q with regs := { p.regs with xs := f.xs, xe := f.xe } }
  else if c = 0x45 then { q with regs := { p.regs with ys := f.ys, ye := f.ye } }
  else if c = 0x4E then { q with regs := { p.regs with cx := f.cx } }
  else if c = 0x4F then { q with regs := { p.regs with cy := f.cy } }
  else if c = 0x11 then { q with regs := { p.regs with dem := f.dem } }
  else if c = 0x41 then { q with regs := { p.regs with bank := f.bank } }
  else if c = 0x12 then { p.forgetRegs with busy := b }
  else if c = 0x20 then { q with busy := b }
  else if c = 0x46 then { q.forgetPlane .red with busy := b }
  else if c = 0x47 then { q.forgetPlane .black with busy := b }
  else p

/-- The effect of a failing write frame: everything it could have touched is unspecified, whichever of its transfers failed
(U10, U16, R70), so as much as the same frame would reach if it ended `Ok`: everything where that would be everything, the
cells of its bytes for a bulk write (R301). That the bound is drawn there is the model's choice (log 11, DESIGN CHOICE). -/
def Peer.touch (c : Byte) (d : List Byte) (p : Peer) : Peer :=
  if p.busy || !fitsWrite c d then p.forgetAll
  else if c = 0x24 then p.touchBulk .black ramErase d.length
  else if c = 0x26 then p.touchBulk .red ramErase d.length
  else p.touchRegister c

/-- The effect of a failing read frame of `k > 0` bytes, bounded as `Peer.touch` bounds it (log 11, DESIGN CHOICE). -/
def Peer.touchRead (c : Byte) (k : Nat) (p : Peer) : Peer :=
  if p.busy || !fitsRead c k then p.forgetAll
  else if c = 0x27 then p.touchBulk p.regs.bank (fun _ m => m) (k - Config.dummyReadBytes)
  else p

end Sys2Proof.Machine
end

