-- ==== Sys2Proof/Machine/Ops.lean ====
section
/-! DEFINITION. The shared operations: the five port primitives (R11), the two frame primitives (R142, R143), the
lifecycle gate (R161), and the end of a request, which is the engine's only "exception" (R320, R334). -/

namespace Sys2Proof.Machine

/-! ### The environment's answers (R11) -/

/-- The status of the k-th transfer. -/
def Env.transfer (e : Env) (k : Nat) : TransportStatus := (e.xfer[k]?).getD (Config.transportAnswer k)

/-- The k-th received byte. -/
def Env.byteAt (e : Env) (k : Nat) : Byte := (e.bytes[k]?).getD (Config.receivedByte k)

/-- The k-th sample of the busy line, true for asserted. -/
def Env.busyAt (e : Env) (k : Nat) : Bool := (e.busy[k]?).getD (Config.busyAnswer k)

/-- The next `n` received bytes. -/
def Env.nextBytes (e : Env) (n : Nat) : List Byte := (List.range n).map fun j => e.byteAt (e.bytePos + j)

/-! ### The port primitives (R11) -/

/-- `SEQ` after `n` more events of the running request (R25). -/
def Seq.after (n : Nat) (q : Seq) : Seq := { q with index := q.index + n }

/-- A request starts: `SEQ` is its tag and the index of its first event (R24). -/
def start (tag : Byte) (s : State) : State := { s with seq := some { tag := tag, index := 0 } }

/-- An event recorded in the trace, stamped with `LSTATE` (log 20); `SEQ` advances by it (R25). -/
def emit (e : Event) (s : State) : State :=
  { s with trace := s.trace ++ [(s.lstate, e)], seq := s.seq.map (Seq.after 1) }

/-- `LSTATE <- l`. -/
def setLState (l : LState) (s : State) : State := { s with lstate := l }

/-- The shadows changed by a function. -/
def modifyShadow (f : Shadow → Shadow) (s : State) : State := { s with sh := f s.sh }

/-- The reference peer changed by a function, where it is attached (log 9). -/
def modifyPeer (f : Peer → Peer) (s : State) : State := if s.env.refPeer then { s with peer := f s.peer } else s

/-- `SetLine(CS, l)` (R34). -/
def setCs (l : CsLevel) (s : State) : State := emit (.cs l) { s with line := { s.line with cs := l } }

/-- `SetLine(DC, l)` (R34). -/
def setDc (l : DcLevel) (s : State) : State := emit (.dc l) { s with line := { s.line with dc := l } }

/-- `SetLine(RST, l)` (R34); the low level resets the peer (R360, R363). -/
def setRst (l : RstLevel) (s : State) : State :=
  let t := emit (.rst l) { s with line := { s.line with rst := l } }
  if l = .low then modifyPeer Peer.hardReset t else t

/-- `SetLine(ACT, l)`, where the line exists (R147). -/
def setAct (l : ActLevel) (s : State) : State :=
  if s.cfg.hasAct then emit (.act l) { s with line := { s.line with act := l } } else s

/-- `Delay(ms)` (R11, R384). -/
def delay (ms : Nat) (s : State) : State := emit (.delay ms) s

/-- The level the busy line shows at this sample: the environment's; with the reference peer attached, asserted only
while the peer is busy (R98). -/
def busyLevel (s : State) : Bool :=
  if s.env.refPeer then s.peer.busy && s.env.busyAt s.env.busyPos else s.env.busyAt s.env.busyPos

/-- `ReadLine(BUSY)`: the level and the state after (R11, R36). A peer seen deasserted is no longer busy (R98). -/
def readBusy (s : State) : Bool × State :=
  let b := busyLevel s
  let t := emit (.busy b) { s with env := { s.env with busyPos := s.env.busyPos + 1 } }
  (b, if b then t else modifyPeer (fun p => { p with busy := false }) t)

/-- `Tx(bytes)` with the time limit `CFG.TIMEOUT` (R11, R148). -/
def tx (bytes : List Byte) (s : State) : TransportStatus × State :=
  let st := s.env.transfer s.env.xferPos
  (st, emit (.tx s.cfg.timeout bytes st) { s with env := { s.env with xferPos := s.env.xferPos + 1 } })

/-- The bytes an `Rx(k)` of a frame with command byte `c` returns when the transport is `Ok`, and the peer after it. -/
def offered (c : Byte) (k : Nat) (s : State) : List Byte × Peer :=
  let raws := s.env.nextBytes k
  if s.env.refPeer then s.peer.supply c raws else (raws, s.peer)

/-- `Rx(k)` in a frame with command byte `c` (R11, R148). A failing transfer returns no bytes (log 17). -/
def rx (c : Byte) (k : Nat) (s : State) : (TransportStatus × List Byte) × State :=
  let st := s.env.transfer s.env.xferPos
  let e := { s.env with xferPos := s.env.xferPos + 1 }
  match st with
  | .ok =>
    let o := offered c k s
    ((.ok, o.1), emit (.rx s.cfg.timeout k .ok o.1) { s with env := { e with bytePos := e.bytePos + k }, peer := o.2 })
  | .fail code =>
    ((.fail code, []), emit (.rx s.cfg.timeout k (.fail code) []) (modifyPeer (Peer.touchRead c k) { s with env := e }))

/-! ### Frames (R142, R143) -/

/-- The status a frame yields from a transport status (R142, R322). -/
def statusOf : TransportStatus → Status
  | .ok => .ok
  | .fail code => .transportError code

/-- The opcode phase of a frame: `[ACT+] CS+ DC=C TX[c] DC=D` (R142, R143). -/
def openFrame (c : Byte) (s : State) : TransportStatus × State :=
  let r := tx [c] (setDc .command (setCs .asserted (setAct .on s)))
  (r.1, setDc .data r.2)

/-- The end of a frame on every path: `CS- [ACT-]` (R145). -/
def closeFrame (s : State) : State := setAct .off (setCs .deasserted s)

/-- What the peer makes of a write frame (R94, U10). -/
def peerTakes (c : Byte) (d : List Byte) (st : TransportStatus) (s : State) : State :=
  modifyPeer (if st = .ok then Peer.accept c d else Peer.touch c d) s

/-- `FrameW(c, d)` (R142). -/
def frameW (c : Byte) (d : List Byte) (s : State) : Status × State :=
  let o := openFrame c s
  let r := if o.1 = .ok ∧ d ≠ [] then tx d o.2 else o
  (statusOf r.1, closeFrame (peerTakes c d r.1 r.2))

/-- `FrameR(c, k)` (R143). With no byte received the frame is on the wire a write frame without payload. -/
def frameR (c : Byte) (k : Nat) (s : State) : (Status × List Byte) × State :=
  let o := openFrame c s
  if k = 0 then ((statusOf o.1, []), closeFrame (peerTakes c [] o.1 o.2))
  else if o.1 = .ok then
    let r := rx c k o.2
    ((statusOf r.1.1, r.1.2), closeFrame r.2)
  else ((statusOf o.1, []), closeFrame (modifyPeer (Peer.touchRead c k) o.2))

/-- `if s ≠ Ok then return s` between two steps (R333). -/
def andThen (r : Status × State) (k : State → Status × State) : Status × State :=
  if r.1 = .ok then k r.2 else r

/-! ### The end of a request (R320, R334) -/

/-- A request ends with a status: `RSP.STATUS` is written, and the engine goes back to waiting. With a status other than
`Ok` every other response field is unspecified, so a free value (R22, R334, log 13). `REQ` is dead from here on (R20); that
it keeps the request's operands until the next latch is the model's choice (log 33, DESIGN CHOICE). -/
def answer (st : Status) (s : State) : State :=
  if st = .ok then { s with rsp := { s.rsp with status := .ok }, seq := none }
  else { s with rsp := { status := st, body := Config.unspecifiedResponse s.free }, free := s.free + 1, seq := none }

/-- The end of a request whose body yields a status and a state. -/
def answerOf (r : Status × State) : State := answer r.1 r.2

/-- Response fields written. -/
def modifyBody (f : ResponseBody → ResponseBody) (s : State) : State := { s with rsp := { s.rsp with body := f s.rsp.body } }

/-- `Gate()` (R161): a request that is legal in `Idle` only starts there, and returns `SequenceError` elsewhere, with no
event. -/
def gated (tag : Byte) (body : State → State) (s : State) : State :=
  if s.lstate = .idle then body (start tag s) else answer .sequenceError s

/-! ### The host request port (R10, R21, R26) -/

/-- The next presented item taken from the port, a request latched into `REQ` (R21), which holds it until the next one is
(log 33). -/
def takeItem (s : State) : Option (Item × State) :=
  match s.port with
  | [] => none
  | .request f :: rest => some (.request f, { s with port := rest, req := f })
  | .wire f :: rest => some (.wire f, { s with port := rest })

/-- The number that selects an item's meaning: a request's tag or a frame's command byte. -/
def itemNumber : Item → Byte
  | .request f => f.tag
  | .wire f => f.cmd

/-- One item presented alone, to an engine that waits for it. -/
def presentItem (i : Item) (s : State) : State := { s with seq := none, port := i :: s.port }

end Sys2Proof.Machine
end

