-- ==== Sys2Proof/Machine/Channel.lean ====
section
/-! DEFINITION. The command channel: `SEND` and `RECEIVE` (R140, R141), legal in either stable state and never gated
(R150). -/

namespace Sys2Proof.Machine

/-- `SEND` (R140). -/
def execSend (c : Byte) (d : List Byte) (s : State) : Host.Outcome State Fault Refusal :=
  .next (answerOf (frameW c d (modifyShadow Shadow.invalidate (start 0x00 s))))

/-- `RECEIVE` (R141): the bytes are returned whole, dummy bytes included. -/
def execReceive (c : Byte) (k : Nat) (s : State) : Host.Outcome State Fault Refusal :=
  let r := frameR c k (modifyShadow Shadow.invalidate (start 0x01 s))
  .next (answerOf (r.1.1, modifyBody (fun b => { b with data := r.1.2 }) r.2))

end Sys2Proof.Machine
end

