-- ==== Sys2Proof/Machine/Encoders.lean ====
section
/-! DEFINITION. The register encoders (R160 to R179): the ungated bodies, which `INIT` and `REFRESH` run too (R129), and
the fifteen gated requests. -/

namespace Sys2Proof.Machine

/-! ### Bodies -/

/-- The two frames of the gate scan range (R162): start row, then end row and the order byte 0. -/
def gateScanBody (startRow endRow : W16) (s : State) : Status × State :=
  andThen (frameW 0x0F (le16 startRow) s) (frameW 0x01 (le16 endRow ++ [0x00]))

/-- The frame of update-control-1 (R163). -/
def updateCtrl1Body (s : State) : Status × State := frameW 0x21 (le16 (uc1Of s.cfg)) s

/-- The frame of update-control-2 (R164). -/
def updateCtrl2Body (s : State) : Status × State := frameW 0x22 [Config.uc2Full] s

/-- The frame of the data entry mode (R169). -/
def dataEntryModeBody (mode : BitVec 3) (s : State) : Status × State := frameW 0x11 [packMode mode] s

/-- The frame of the RAM bank (R170). -/
def bankBody (b : Bank) (s : State) : Status × State := frameW 0x41 [bankCode b] s

/-- The frame of the temperature sensor (R171). -/
def tempSensorBody (s : State) : Status × State := frameW 0x18 [Config.tempInternal] s

/-- The frame of the software reset (R173). -/
def softwareResetBody (s : State) : Status × State := frameW 0x12 [] s

/-- The frame of the master activation (R174). -/
def masterActivationBody (s : State) : Status × State := frameW 0x20 [] s

/-- The frame of the booster soft start (R175). -/
def boosterBody (s : State) : Status × State := frameW 0x0C Config.booster s

/-- The read of the user ID (R176). -/
def userIdBody (s : State) : (Status × List Byte) × State := frameR 0x2E Config.userIdLen s

/-! ### Requests -/

/-- `GATE_SCAN_RANGE` (R162). -/
def execGateScanRange (startRow endRow : W16) (s : State) : Host.Outcome State Fault Refusal :=
  .next (gated 0x02 (fun s => answerOf (gateScanBody startRow endRow s)) s)

/-- `UPDATE_CTRL1` (R163). -/
def execUpdateCtrl1 (s : State) : Host.Outcome State Fault Refusal :=
  .next (gated 0x03 (fun s => answerOf (updateCtrl1Body s)) s)

/-- `UPDATE_CTRL2` (R164). -/
def execUpdateCtrl2 (s : State) : Host.Outcome State Fault Refusal :=
  .next (gated 0x04 (fun s => answerOf (updateCtrl2Body s)) s)

/-- `BORDER` (R165). -/
def execBorder (color : Color) (s : State) : Host.Outcome State Fault Refusal :=
  .next (gated 0x05 (fun s => answerOf (frameW 0x3C [packBorder color] s)) s)

/-- `PATTERN_FILL_PRIMARY` (R166). -/
def execPatternFillPrimary (ps ss : BitVec 3) (color : Color) (s : State) : Host.Outcome State Fault Refusal :=
  .next (gated 0x06 (fun s => answerOf (frameW 0x47 [packPatternPrimary ps ss color] s)) s)

/-- `PATTERN_FILL_SECONDARY` (R167). -/
def execPatternFillSecondary (ps ss : BitVec 3) (color : Color) (s : State) : Host.Outcome State Fault Refusal :=
  .next (gated 0x07 (fun s => answerOf (frameW 0x46 [packPatternSecondary ps ss color] s)) s)

/-- `DATA_ENTRY_MODE` (R169). -/
def execDataEntryMode (mode : BitVec 3) (s : State) : Host.Outcome State Fault Refusal :=
  .next (gated 0x08 (fun s => answerOf (dataEntryModeBody mode s)) s)

/-- `RAM_BANK_SELECT` (R170). -/
def execRamBankSelect (b : Bank) (s : State) : Host.Outcome State Fault Refusal :=
  .next (gated 0x09 (fun s => answerOf (bankBody b s)) s)

/-- `SELECT_TEMP_SENSOR` (R171). -/
def execSelectTempSensor (s : State) : Host.Outcome State Fault Refusal :=
  .next (gated 0x0A (fun s => answerOf (tempSensorBody s)) s)

/-- `READ_TEMPERATURE` (R172). -/
def execReadTemperature (s : State) : Host.Outcome State Fault Refusal :=
  .next (gated 0x0B (fun s =>
    let r := frameR 0x1B 2 s
    answerOf (r.1.1, modifyBody (fun b => { b with value := temperature s.cfg r.1.2 }) r.2)) s)

/-- `SOFTWARE_RESET` (R173): no busy-wait, no change of `LSTATE`. -/
def execSoftwareReset (s : State) : Host.Outcome State Fault Refusal :=
  .next (gated 0x0C (fun s => answerOf (softwareResetBody s)) s)

/-- `MASTER_ACTIVATION` (R174): no busy-wait, no change of `LSTATE`. -/
def execMasterActivation (s : State) : Host.Outcome State Fault Refusal :=
  .next (gated 0x0D (fun s => answerOf (masterActivationBody s)) s)

/-- `BOOSTER_SOFT_START` (R175). -/
def execBoosterSoftStart (s : State) : Host.Outcome State Fault Refusal :=
  .next (gated 0x0E (fun s => answerOf (boosterBody s)) s)

/-- `READ_USER_ID` (R176). -/
def execReadUserId (s : State) : Host.Outcome State Fault Refusal :=
  .next (gated 0x0F (fun s =>
    let r := userIdBody s
    answerOf (r.1.1, modifyBody (fun b => { b with data := r.1.2 }) r.2)) s)

/-- `NOP` (R177): a full frame on the wire, no effect on the peer. -/
def execNop (s : State) : Host.Outcome State Fault Refusal :=
  .next (gated 0x10 (fun s => answerOf (frameW 0x7F [] s)) s)

end Sys2Proof.Machine
end

