-- ==== Sys2Proof/Machine/Lifecycle.lean ====
section
/-! DEFINITION. The init/refresh state machine: `RESET`, `INIT`, `REFRESH`, `BUSY_WAIT` (R260 to R275). A step polls the
busy line once: where the poll reads asserted the request stays at its busy-wait, held in `SEQ`, and the next step goes on
with it (R25, R266, R267, log 4). -/

namespace Sys2Proof.Machine

/-- The tag of `RESET` (R127). -/
def tagReset : Byte := 0x17

/-- The tag of `INIT` (R127). -/
def tagInit : Byte := 0x18

/-- The tag of `REFRESH` (R127). -/
def tagRefresh : Byte := 0x19

/-- The tag of `BUSY_WAIT` (R127). -/
def tagBusyWait : Byte := 0x1A

/-- `ResetBody` (R260): the pulse on the reset line and the hold. -/
def resetBody (s : State) : State :=
  delay Config.tRstHold (setRst .high (delay Config.tRstLow (setRst .low s)))

/-- `fail(s)` of `INIT` (R263). -/
def initFail (st : Status) (s : State) : State := answer st (setLState .poweredOff s)

/-- The frames of `INIT` after its busy-wait (R263): the user-ID bytes are dropped, the status is not. -/
def configureBody (s : State) : Status × State :=
  let r := userIdBody s
  andThen (r.1.1, r.2) fun s =>
  andThen (gateScanBody 0 s.cfg.resY s) fun s =>
  andThen (updateCtrl1Body s) fun s =>
  andThen (updateCtrl2Body s) fun s =>
  andThen (dataEntryModeBody Config.demDefault s) tempSensorBody

/-- `INIT` from the end of its busy-wait to its end (R263). -/
def initConfigure (s : State) : State :=
  let r := configureBody (setLState .configuring s)
  if r.1 = .ok then answer .ok (setLState .idle r.2) else initFail r.1 r.2

/-- What a request does when its busy-wait has ended (R263, R265, R266). -/
def afterWait (tag : Byte) (s : State) : State :=
  if tag = tagInit then initConfigure s
  else if tag = tagRefresh then answer .ok (setLState .idle s)
  else answer .ok s

/-- One turn of `BusyWaitBody` (R266) in the request `tag`: a poll, and where it reads asserted the delay, the request
staying at its next poll, which `SEQ` names (R25). -/
def waitTurn (tag : Byte) (s : State) : State :=
  let r := readBusy s
  if r.1 then delay Config.tPoll r.2 else afterWait tag r.2

/-- `RESET` (R260). -/
def execReset (s : State) : Host.Outcome State Fault Refusal :=
  .next (answer .ok (setLState .poweredOff
    (resetBody (setLState .resetting (modifyShadow Shadow.invalidate (start tagReset s))))))

/-- The beginning of `INIT`, up to its busy-wait (R263). -/
def initStart (s : State) : Status × State :=
  softwareResetBody (setLState .awaitingReady
    (resetBody (setLState .resetting (modifyShadow Shadow.invalidate (start tagInit s)))))

/-- `INIT` (R263). -/
def execInit (s : State) : Host.Outcome State Fault Refusal :=
  let r := initStart s
  .next (if r.1 = .ok then waitTurn tagInit r.2 else initFail r.1 r.2)

/-- The three frames of `REFRESH` (R265). -/
def refreshBody (s : State) : Status × State :=
  andThen (boosterBody s) fun s => andThen (updateCtrl2Body s) masterActivationBody

/-- `REFRESH` (R265). -/
def execRefresh (s : State) : Host.Outcome State Fault Refusal :=
  .next (gated tagRefresh (fun s =>
    let r := refreshBody (setLState .updating s)
    if r.1 = .ok then waitTurn tagRefresh r.2
    else answer r.1 (setLState .idle r.2)) s)

/-- `BUSY_WAIT` (R266). -/
def execBusyWait (s : State) : Host.Outcome State Fault Refusal :=
  .next (waitTurn tagBusyWait (start tagBusyWait s))

/-- A waiting request goes on with its busy-wait (R266, R267). -/
def resumeWait (q : Seq) (s : State) : Host.Outcome State Fault Refusal :=
  if q.tag = tagInit ∨ q.tag = tagRefresh ∨ q.tag = tagBusyWait then .next (waitTurn q.tag s)
  else .fault .sequencerLost

end Sys2Proof.Machine
end

