-- ==== Sys2Proof/Machine/Window.lean ====
section
/-! DEFINITION. The RAM address sequencer: the tracked frames, the ungated bodies (R224 to R226) and the four requests
(R220 to R223). -/

namespace Sys2Proof.Machine

/-- The frame 0x44 with its shadow group (R224, R42, R44). -/
def frameXRange (xs xe : Byte) (s : State) : Status × State :=
  let r := frameW 0x44 [xs, xe] s
  (r.1, modifyShadow (Shadow.afterX r.1 xs xe) r.2)

/-- The frame 0x45 with its shadow group (R225, R42, R44). -/
def frameYRange (ys ye : W16) (s : State) : Status × State :=
  let r := frameW 0x45 (le16 ys ++ le16 ye) s
  (r.1, modifyShadow (Shadow.afterY r.1 ys ye) r.2)

/-- The frame 0x4E with its shadow group (R226, R42, R44). -/
def frameXCounter (x : Byte) (s : State) : Status × State :=
  let r := frameW 0x4E [x] s
  (r.1, modifyShadow (Shadow.afterCx r.1 x) r.2)

/-- The frame 0x4F with its shadow group (R226, R42, R44). -/
def frameYCounter (y : W16) (s : State) : Status × State :=
  let r := frameW 0x4F (le16 y) s
  (r.1, modifyShadow (Shadow.afterCy r.1 y) r.2)

/-- `HRange(left, width)` (R224); a glyph width is a natural, so the operands are (log 26). -/
def hRange (left width : Nat) (s : State) : Status × State :=
  if aligned left ∧ aligned width then frameXRange (xsField left) (xeField left width) s else (.alignmentError, s)

/-- `VRange(top, height)` (R225). -/
def vRange (top height : Nat) (s : State) : Status × State := frameYRange (ysField top) (yeField top height) s

/-- `StartAddr(x, y)` (R226): the X frame, then the Y frame. -/
def startAddr (x y : W16) (s : State) : Status × State :=
  if aligned x.toNat then andThen (frameXCounter (cxField x.toNat) s) (frameYCounter y) else (.alignmentError, s)

/-- `SET_H_RANGE` (R220). -/
def execSetHRange (left width : W16) (s : State) : Host.Outcome State Fault Refusal :=
  .next (gated 0x11 (fun s => answerOf (hRange left.toNat width.toNat s)) s)

/-- `SET_V_RANGE` (R221). -/
def execSetVRange (top height : W16) (s : State) : Host.Outcome State Fault Refusal :=
  .next (gated 0x12 (fun s => answerOf (vRange top.toNat height.toNat s)) s)

/-- `SET_START_ADDRESS` (R222). -/
def execSetStartAddress (x y : W16) (s : State) : Host.Outcome State Fault Refusal :=
  .next (gated 0x13 (fun s => answerOf (startAddr x y s)) s)

/-- `RESET_FULL_RANGE` (R223). -/
def execResetFullRange (s : State) : Host.Outcome State Fault Refusal :=
  .next (gated 0x14 (fun s => answerOf (andThen (hRange 0 s.cfg.resX.toNat s) (vRange 0 s.cfg.resY.toNat))) s)

end Sys2Proof.Machine
end

