-- ==== Sys2Proof/Machine/Region.lean ====
section
/-! DEFINITION. The region transfer sequencer: `WRITE_REGION` and `READ_REGION` (R240 to R250). -/

namespace Sys2Proof.Machine

/-- A bulk write frame: the counter shadows are invalidated as it starts (R43, R241). -/
def bulkWrite (c : Byte) (d : List Byte) (s : State) : Status × State :=
  frameW c d (modifyShadow Shadow.invalidateCounter s)

/-- A bulk read frame of `n` data bytes: `2 + n` received, the first 2 dropped (R43, R245, R246). -/
def bulkRead (n : Nat) (s : State) : (Status × List Byte) × State :=
  let r := frameR 0x27 (Config.dummyReadBytes + n) (modifyShadow Shadow.invalidateCounter s)
  ((r.1.1, r.1.2.drop Config.dummyReadBytes), r.2)

/-- The frames of one plane of `WRITE_REGION`, none for an absent buffer (R241, R242). -/
def writePlane (c : Byte) (buf : Option (List Byte)) (left top : W16) (s : State) : Status × State :=
  match buf with
  | none => (.ok, s)
  | some b => andThen (startAddr left top s) (bulkWrite c b)

/-- A plane's bytes written to the response frame (R245). -/
def putPlane (b : Bank) (d : List Byte) (r : ResponseBody) : ResponseBody :=
  match b with
  | .black => { r with p := d }
  | .red => { r with s := d }

/-- The bulk read of a plane with its result written (R245). -/
def readInto (b : Bank) (n : Nat) (s : State) : Status × State :=
  let r := bulkRead n s
  (r.1.1, if r.1.1 = .ok then modifyBody (putPlane b r.1.2) r.2 else r.2)

/-- The frames of one plane of `READ_REGION`, none for a plane not wanted (R245, R247). -/
def readPlane (b : Bank) (want : Bool) (left top : W16) (n : Nat) (s : State) : Status × State :=
  if want then andThen (bankBody b s) fun s => andThen (startAddr left top s) (readInto b n) else (.ok, s)

/-- The body of `WRITE_REGION` (R241): both alignment checks, the ranges, then each present plane. -/
def writeRegionBody (left top width height : W16) (p q : Option (List Byte)) (s : State) : Status × State :=
  if aligned left.toNat ∧ aligned width.toNat then
    andThen (hRange left.toNat width.toNat s) fun s =>
    andThen (vRange top.toNat height.toNat s) fun s =>
    andThen (writePlane 0x24 p left top s) (writePlane 0x26 q left top)
  else (.alignmentError, s)

/-- The body of `READ_REGION` (R245). -/
def readRegionBody (left top width height : W16) (wantP wantS : Bool) (s : State) : Status × State :=
  if aligned left.toNat ∧ aligned width.toNat then
    andThen (hRange left.toNat width.toNat s) fun s =>
    andThen (vRange top.toNat height.toNat s) fun s =>
    andThen (readPlane .black wantP left top (regionBytes width.toNat height.toNat) s)
      (readPlane .red wantS left top (regionBytes width.toNat height.toNat))
  else (.alignmentError, s)

/-- `WRITE_REGION` (R241). A buffer of the wrong length is refused (R23, U7). -/
def execWriteRegion (left top width height : W16) (p q : Option (List Byte)) (s : State) :
    Host.Outcome State Fault Refusal :=
  if writeRegionOk width height p q then
    .next (gated 0x15 (fun s => answerOf (writeRegionBody left top width height p q s)) s)
  else .refused .bufferLength

/-- `READ_REGION` (R245). -/
def execReadRegion (left top width height : W16) (wantP wantS : Bool) (s : State) : Host.Outcome State Fault Refusal :=
  .next (gated 0x16 (fun s => answerOf (readRegionBody left top width height wantP wantS s)) s)

end Sys2Proof.Machine
end

