-- ==== Sys2Proof/Machine/Text.lean ====
section
/-! DEFINITION. The optional text unit: `PRINT_H` and `PRINT_V` (R290 to R306). -/

namespace Sys2Proof.Machine

/-- `Blit(x, y, b)` (R297): a primary-plane region write of one cell, without the gate. -/
def blit (x y : W16) (f : Font) (b : List Byte) (s : State) : Status × State :=
  if aligned x.toNat ∧ aligned f.gw then
    andThen (hRange x.toNat f.gw s) fun s =>
    andThen (vRange y.toNat f.gh s) fun s =>
    andThen (startAddr x y s) (bulkWrite 0x24 b)
  else (.alignmentError, s)

/-- The character loop of R291 and R292: `down` is the line-feed's change of `row`, `origin` the cell origin. The cursor is
local to the request (R46). -/
def printLoop (down : Int) (origin : Int × Int → W16 × W16) (f : Font) :
    List Byte → Int × Int → State → (Status × (Int × Int)) × State
  | [], cur, s => ((.ok, cur), s)
  | c :: cs, cur, s =>
    match controlMove down c cur with
    | some cur' => printLoop down origin f cs cur' s
    | none =>
      let r := blit (origin cur).1 (origin cur).2 f (invertedGlyph f c) s
      if r.1 = .ok then printLoop down origin f cs (cur.1 + 1, cur.2) r.2 else ((r.1, cur), r.2)

/-- A text request from its cursor at (0,0) to its answer (R291). -/
def printBody (down : Int) (origin : Int × Int → W16 × W16) (f : Font) (str : List Byte) (s : State) : State :=
  let r := printLoop down origin f str (0, 0) s
  answerOf (r.1.1, modifyBody (fun b => { b with col := r.1.2.1, row := r.1.2.2 }) r.2)

/-- What both text requests share: the unit and the glyph table must be there (R23, R126), then the gate. -/
def printRequest (tag : Byte) (f : Font) (body : State → State) (s : State) : Host.Outcome State Fault Refusal :=
  if s.cfg.hasText then
    if fontOk f then .next (gated tag body s) else .refused .glyphTable
  else .refused .textUnitAbsent

/-- `PRINT_H` (R291). -/
def execPrintH (left top : W16) (f : Font) (str : List Byte) (s : State) : Host.Outcome State Fault Refusal :=
  printRequest 0x1B f (printBody 1 (originH left top f) f str) s

/-- `PRINT_V` (R292). -/
def execPrintV (left top : W16) (f : Font) (str : List Byte) (s : State) : Host.Outcome State Fault Refusal :=
  printRequest 0x1C f (printBody (-1) (originV left top f) f str) s

end Sys2Proof.Machine
end

