-- ==== Sys2Proof/Machine/Wire.lean ====
section
/-! DEFINITION. The wire opcodes (R180 to R205): one frame each, handed to the framer with no request around it (log 6).
Each answers with the status of its frame; the range and counter frames carry the shadows with them as the engine's own
encoders do (R42 to R44); none is gated and none writes `LSTATE`. -/

namespace Sys2Proof.Machine

/-- `OP_GATE_SCAN` (R180). -/
def execOpGateScan (endRow : W16) (order : Byte) (s : State) : Host.Outcome State Fault Refusal :=
  .next (answerOf (frameW 0x01 (le16 endRow ++ [order]) s))

/-- `OP_GATE_VOLTAGE` (R181). -/
def execOpGateVoltage (data : List Byte) (s : State) : Host.Outcome State Fault Refusal :=
  .next (answerOf (frameW 0x03 data s))

/-- `OP_SOURCE_VOLTAGE` (R182). -/
def execOpSourceVoltage (data : List Byte) (s : State) : Host.Outcome State Fault Refusal :=
  .next (answerOf (frameW 0x04 data s))

/-- `OP_BOOSTER_SOFT_START` (R183). -/
def execOpBoosterSoftStart (d0 d1 d2 d3 : Byte) (s : State) : Host.Outcome State Fault Refusal :=
  .next (answerOf (frameW 0x0C [d0, d1, d2, d3] s))

/-- `OP_GATE_SCAN_START` (R184). -/
def execOpGateScanStart (startRow : W16) (s : State) : Host.Outcome State Fault Refusal :=
  .next (answerOf (frameW 0x0F (le16 startRow) s))

/-- `OP_DATA_ENTRY_MODE` (R185). -/
def execOpDataEntryMode (d0 : Byte) (s : State) : Host.Outcome State Fault Refusal :=
  .next (answerOf (frameW 0x11 [d0] s))

/-- `OP_SW_RESET` (R186). -/
def execOpSwReset (s : State) : Host.Outcome State Fault Refusal :=
  .next (answerOf (frameW 0x12 [] s))

/-- `OP_TEMP_SENSOR_SELECT` (R187). -/
def execOpTempSensorSelect (d0 : Byte) (s : State) : Host.Outcome State Fault Refusal :=
  .next (answerOf (frameW 0x18 [d0] s))

/-- `OP_TEMP_READ` (R188): the two bytes received, shifted right by 4 into `RSP.VALUE` (log 29). -/
def execOpTempRead (s : State) : Host.Outcome State Fault Refusal :=
  let r := frameR 0x1B 2 s
  .next (answerOf (r.1.1, modifyBody (fun b => { b with value := temperature s.cfg r.1.2 }) r.2))

/-- `OP_MASTER_ACTIVATION` (R189). -/
def execOpMasterActivation (s : State) : Host.Outcome State Fault Refusal :=
  .next (answerOf (frameW 0x20 [] s))

/-- `OP_UPDATE_CONTROL_1` (R190). -/
def execOpUpdateControl1 (uc1 : W16) (s : State) : Host.Outcome State Fault Refusal :=
  .next (answerOf (frameW 0x21 (le16 uc1) s))

/-- `OP_UPDATE_CONTROL_2` (R191). -/
def execOpUpdateControl2 (d0 : Byte) (s : State) : Host.Outcome State Fault Refusal :=
  .next (answerOf (frameW 0x22 [d0] s))

/-- `OP_WRITE_RAM_PRIMARY` (R192). -/
def execOpWriteRamPrimary (data : List Byte) (s : State) : Host.Outcome State Fault Refusal :=
  .next (answerOf (bulkWrite 0x24 data s))

/-- `OP_WRITE_RAM_SECONDARY` (R193). -/
def execOpWriteRamSecondary (data : List Byte) (s : State) : Host.Outcome State Fault Refusal :=
  .next (answerOf (bulkWrite 0x26 data s))

/-- `OP_READ_RAM` (R194): the two dummy bytes dropped, the data into `RSP.DATA` (log 29). -/
def execOpReadRam (n : Nat) (s : State) : Host.Outcome State Fault Refusal :=
  let r := bulkRead n s
  .next (answerOf (r.1.1, modifyBody (fun b => { b with data := r.1.2 }) r.2))

/-- `OP_VCOM_VOLTAGE` (R195). -/
def execOpVcomVoltage (data : List Byte) (s : State) : Host.Outcome State Fault Refusal :=
  .next (answerOf (frameW 0x2C data s))

/-- `OP_READ_USER_ID` (R196): the ten bytes into `RSP.DATA` (log 29). -/
def execOpReadUserId (s : State) : Host.Outcome State Fault Refusal :=
  let r := frameR 0x2E Config.userIdLen s
  .next (answerOf (r.1.1, modifyBody (fun b => { b with data := r.1.2 }) r.2))

/-- `OP_BORDER` (R197). -/
def execOpBorder (d0 : Byte) (s : State) : Host.Outcome State Fault Refusal :=
  .next (answerOf (frameW 0x3C [d0] s))

/-- `OP_RAM_READ_BANK` (R198). -/
def execOpRamReadBank (d0 : Byte) (s : State) : Host.Outcome State Fault Refusal :=
  .next (answerOf (frameW 0x41 [d0] s))

/-- `OP_RAM_X_RANGE` (R199). -/
def execOpRamXRange (xs xe : Byte) (s : State) : Host.Outcome State Fault Refusal :=
  .next (answerOf (frameXRange xs xe s))

/-- `OP_RAM_Y_RANGE` (R200). -/
def execOpRamYRange (ys ye : W16) (s : State) : Host.Outcome State Fault Refusal :=
  .next (answerOf (frameYRange ys ye s))

/-- `OP_PATTERN_SECONDARY` (R201). -/
def execOpPatternSecondary (d0 : Byte) (s : State) : Host.Outcome State Fault Refusal :=
  .next (answerOf (frameW 0x46 [d0] s))

/-- `OP_PATTERN_PRIMARY` (R202). -/
def execOpPatternPrimary (d0 : Byte) (s : State) : Host.Outcome State Fault Refusal :=
  .next (answerOf (frameW 0x47 [d0] s))

/-- `OP_RAM_X_COUNTER` (R203). -/
def execOpRamXCounter (x : Byte) (s : State) : Host.Outcome State Fault Refusal :=
  .next (answerOf (frameXCounter x s))

/-- `OP_RAM_Y_COUNTER` (R204). -/
def execOpRamYCounter (y : W16) (s : State) : Host.Outcome State Fault Refusal :=
  .next (answerOf (frameYCounter y s))

/-- `OP_NOP` (R205). -/
def execOpNop (s : State) : Host.Outcome State Fault Refusal :=
  .next (answerOf (frameW 0x7F [] s))

end Sys2Proof.Machine
end

