-- ==== Sys2Proof/Machine/Dispatch.lean ====
section
/-! DEFINITION. The dispatch of an instruction to its meaning, one arm per row of spec/opcode_table.json. -/

namespace Sys2Proof.Machine

def exec (i : Instr) (s : State) : Host.Outcome State Fault Refusal :=
  match i with
  | .opGateScan endRow order => Sys2Proof.Machine.execOpGateScan endRow order s
  | .opGateVoltage data => Sys2Proof.Machine.execOpGateVoltage data s
  | .opSourceVoltage data => Sys2Proof.Machine.execOpSourceVoltage data s
  | .opBoosterSoftStart d0 d1 d2 d3 => Sys2Proof.Machine.execOpBoosterSoftStart d0 d1 d2 d3 s
  | .opGateScanStart startRow => Sys2Proof.Machine.execOpGateScanStart startRow s
  | .opDataEntryMode d0 => Sys2Proof.Machine.execOpDataEntryMode d0 s
  | .opSwReset => Sys2Proof.Machine.execOpSwReset s
  | .opTempSensorSelect d0 => Sys2Proof.Machine.execOpTempSensorSelect d0 s
  | .opTempRead => Sys2Proof.Machine.execOpTempRead s
  | .opMasterActivation => Sys2Proof.Machine.execOpMasterActivation s
  | .opUpdateControl1 uc1 => Sys2Proof.Machine.execOpUpdateControl1 uc1 s
  | .opUpdateControl2 d0 => Sys2Proof.Machine.execOpUpdateControl2 d0 s
  | .opWriteRamPrimary data => Sys2Proof.Machine.execOpWriteRamPrimary data s
  | .opWriteRamSecondary data => Sys2Proof.Machine.execOpWriteRamSecondary data s
  | .opReadRam n => Sys2Proof.Machine.execOpReadRam n s
  | .opVcomVoltage data => Sys2Proof.Machine.execOpVcomVoltage data s
  | .opReadUserId => Sys2Proof.Machine.execOpReadUserId s
  | .opBorder d0 => Sys2Proof.Machine.execOpBorder d0 s
  | .opRamReadBank d0 => Sys2Proof.Machine.execOpRamReadBank d0 s
  | .opRamXRange xs xe => Sys2Proof.Machine.execOpRamXRange xs xe s
  | .opRamYRange ys ye => Sys2Proof.Machine.execOpRamYRange ys ye s
  | .opPatternSecondary d0 => Sys2Proof.Machine.execOpPatternSecondary d0 s
  | .opPatternPrimary d0 => Sys2Proof.Machine.execOpPatternPrimary d0 s
  | .opRamXCounter x => Sys2Proof.Machine.execOpRamXCounter x s
  | .opRamYCounter y => Sys2Proof.Machine.execOpRamYCounter y s
  | .opNop => Sys2Proof.Machine.execOpNop s
  | .send c d => Sys2Proof.Machine.execSend c d s
  | .receive c k => Sys2Proof.Machine.execReceive c k s
  | .gateScanRange startRow endRow => Sys2Proof.Machine.execGateScanRange startRow endRow s
  | .updateCtrl1 => Sys2Proof.Machine.execUpdateCtrl1 s
  | .updateCtrl2 => Sys2Proof.Machine.execUpdateCtrl2 s
  | .border color => Sys2Proof.Machine.execBorder color s
  | .patternFillPrimary ps ss color => Sys2Proof.Machine.execPatternFillPrimary ps ss color s
  | .patternFillSecondary ps ss color => Sys2Proof.Machine.execPatternFillSecondary ps ss color s
  | .dataEntryMode mode => Sys2Proof.Machine.execDataEntryMode mode s
  | .ramBankSelect bank => Sys2Proof.Machine.execRamBankSelect bank s
  | .selectTempSensor => Sys2Proof.Machine.execSelectTempSensor s
  | .readTemperature => Sys2Proof.Machine.execReadTemperature s
  | .softwareReset => Sys2Proof.Machine.execSoftwareReset s
  | .masterActivation => Sys2Proof.Machine.execMasterActivation s
  | .boosterSoftStart => Sys2Proof.Machine.execBoosterSoftStart s
  | .readUserId => Sys2Proof.Machine.execReadUserId s
  | .nop => Sys2Proof.Machine.execNop s
  | .setHRange left width => Sys2Proof.Machine.execSetHRange left width s
  | .setVRange top height => Sys2Proof.Machine.execSetVRange top height s
  | .setStartAddress x y => Sys2Proof.Machine.execSetStartAddress x y s
  | .resetFullRange => Sys2Proof.Machine.execResetFullRange s
  | .writeRegion left top width height p q => Sys2Proof.Machine.execWriteRegion left top width height p q s
  | .readRegion left top width height wantP wantS => Sys2Proof.Machine.execReadRegion left top width height wantP wantS s
  | .reset => Sys2Proof.Machine.execReset s
  | .init => Sys2Proof.Machine.execInit s
  | .refresh => Sys2Proof.Machine.execRefresh s
  | .busyWait => Sys2Proof.Machine.execBusyWait s
  | .printH left top font str => Sys2Proof.Machine.execPrintH left top font str s
  | .printV left top font str => Sys2Proof.Machine.execPrintV left top font str s

end Sys2Proof.Machine
end

