-- ==== Sys2Proof/Machine/Step.lean ====
section
/-! DEFINITION. One step of the engine: it goes on with a waiting request, or takes the next presented item, decodes it
and runs it; with nothing presented it waits (R24, R26, R47, log 4, log 5). -/

namespace Sys2Proof.Machine

/-- The item taken from the port is decoded and run. -/
def runItem (i : Item) (s : State) : Host.Outcome State Fault Refusal :=
  match decode i with
  | .ok instr => exec instr s
  | .error _ => .refused (.noSuchItem (itemNumber i))

/-- One step. No request runs on an ill-formed configuration (R8). -/
def step (s : State) : Host.Outcome State Fault Refusal :=
  if s.cfg.wf then
    match s.seq with
    | some q => resumeWait q s
    | none =>
      match takeItem s with
      | none => .next s
      | some (i, t) => runItem i t
  else .refused .illFormedConfig

/-- The item of a table word presented to the waiting engine, before everything else (log 5, log 7). -/
def State.withFetchWord (s : State) (nbits w : Nat) : State := presentItem (itemOfTableWord (w % 2 ^ nbits)) s

end Sys2Proof.Machine
end

