-- ==== Sys2Proof/Safety.lean ====
section
/-! DEFINITION. What the claims speak of: the frames of R146 as events, the state a frame leaves, the engine's invariant
(R31, R33, R34, R145), the bus discipline of a trace (R142 to R145), and the tables of R272, R273 and R325. -/

namespace Sys2Proof.Machine

/-! ### Frames in the trace (R146) -/

/-- The events `ACT+` or `ACT-`, where the line exists (R146, R147). -/
def actEvents (c : Cfg) (l : ActLevel) : List Event := if c.hasAct then [.act l] else []

/-- A write frame in which every transfer is `Ok`: `W(op; d)` (R146). -/
def writeEvents (c : Cfg) (op : Byte) (d : List Byte) : List Event :=
  actEvents c .on ++ [.cs .asserted, .dc .command, .tx c.timeout [op] .ok, .dc .data] ++
    (if d = [] then [] else [.tx c.timeout d .ok]) ++ [.cs .deasserted] ++ actEvents c .off

/-- A read frame in which every transfer is `Ok`: `R(op; k) -> r`, with `k > 0` (R146). -/
def readEvents (c : Cfg) (op : Byte) (k : Nat) (r : List Byte) : List Event :=
  actEvents c .on ++ [.cs .asserted, .dc .command, .tx c.timeout [op] .ok, .dc .data, .rx c.timeout k .ok r,
    .cs .deasserted] ++ actEvents c .off

/-- A frame whose opcode transfer fails (R144 (a)). -/
def opcodeFailEvents (c : Cfg) (op : Byte) (code : Nat) : List Event :=
  actEvents c .on ++ [.cs .asserted, .dc .command, .tx c.timeout [op] (.fail code), .dc .data, .cs .deasserted] ++
    actEvents c .off

/-- A write frame whose payload transfer fails (R144 (b)). -/
def payloadFailEvents (c : Cfg) (op : Byte) (d : List Byte) (code : Nat) : List Event :=
  actEvents c .on ++ [.cs .asserted, .dc .command, .tx c.timeout [op] .ok, .dc .data, .tx c.timeout d (.fail code),
    .cs .deasserted] ++ actEvents c .off

/-- A read frame whose `Rx` fails (R144 (b)). -/
def readFailEvents (c : Cfg) (op : Byte) (k code : Nat) : List Event :=
  actEvents c .on ++ [.cs .asserted, .dc .command, .tx c.timeout [op] .ok, .dc .data, .rx c.timeout k (.fail code) [],
    .cs .deasserted] ++ actEvents c .off

/-- Events stamped with the `LSTATE` under which they happen. -/
def stamp (l : LState) (es : List Event) : List (LState × Event) := es.map fun e => (l, e)

/-- The next `n` transfers are all `Ok`. -/
def transfersOk (n : Nat) (s : State) : Prop := ∀ k < n, s.env.transfer (s.env.xferPos + k) = .ok

/-- The output lines after a frame (R145). -/
def restored (s : State) : Lines :=
  { s.line with cs := .deasserted, dc := .data, act := if s.cfg.hasAct then .off else s.line.act }

/-- How many transfers a write frame with this payload makes (R101, R142). -/
def transfersOf (d : List Byte) : Nat := if d = [] then 1 else 2

/-- The state after the write frame `W(op; d)`: its events, which `SEQ` has advanced by (R25), its transfers, the lines
restored, the peer's effect. -/
def State.wrote (op : Byte) (d : List Byte) (s : State) : State :=
  { s with
    trace := s.trace ++ stamp s.lstate (writeEvents s.cfg op d)
    seq := s.seq.map (Seq.after (writeEvents s.cfg op d).length)
    line := restored s
    env := { s.env with xferPos := s.env.xferPos + transfersOf d }
    peer := if s.env.refPeer then s.peer.accept op d else s.peer }

/-- The state after several write frames, in order. -/
def State.wroteAll : List (Byte × List Byte) → State → State
  | [], s => s
  | f :: fs, s => State.wroteAll fs (s.wrote f.1 f.2)

/-- The transfers of several write frames. -/
def transfersOfAll (fs : List (Byte × List Byte)) : Nat := (fs.map fun f => transfersOf f.2).sum

/-- The events of several write frames, by which `SEQ` advances (R25). -/
def eventsOfAll (c : Cfg) (fs : List (Byte × List Byte)) : Nat := (fs.map fun f => (writeEvents c f.1 f.2).length).sum

/-- The state after the read frame `R(op; k)`, `k > 0`: as for a write frame, and `k` bytes taken. -/
def State.didRead (op : Byte) (k : Nat) (s : State) : State :=
  { s with
    trace := s.trace ++ stamp s.lstate (readEvents s.cfg op k (offered op k s).1)
    seq := s.seq.map (Seq.after (readEvents s.cfg op k (offered op k s).1).length)
    line := restored s
    env := { s.env with xferPos := s.env.xferPos + 2, bytePos := s.env.bytePos + k }
    peer := (offered op k s).2 }

/-- A request answered `Ok`. -/
def State.answeredOk (s : State) : State := { s with rsp := { s.rsp with status := .ok }, seq := none }

/-- A request answered with another status: every other response field is a free value (R22). -/
def State.answeredFail (st : Status) (s : State) : State :=
  { s with rsp := { status := st, body := Config.unspecifiedResponse s.free }, free := s.free + 1, seq := none }

/-! ### The engine's invariant -/

/-- `LSTATE` and `SEQ` between two steps (R31, R33): a stable state where no request runs, and the state of the busy-wait
where one waits. -/
def seqOk (s : State) : Prop :=
  match s.seq with
  | none => s.lstate = .poweredOff ∨ s.lstate = .idle
  | some q =>
    (q.tag = tagInit ∧ s.lstate = .awaitingReady) ∨ (q.tag = tagRefresh ∧ s.lstate = .updating) ∨
      (q.tag = tagBusyWait ∧ (s.lstate = .poweredOff ∨ s.lstate = .idle))

/-- The phase of the bus inside a trace. -/
inductive BusPhase where
  | released
  | selected
  | command
  | sent (ok : Bool)
  | data (ok : Bool)
  | moved
deriving DecidableEq, Repr

/-- One event of the bus discipline (R142 to R145, D9): a frame is `CS+ DC=C TX[c] DC=D`, then, only where the opcode
transfer was `Ok`, at most one transfer of at least one byte, then `CS-`; nothing is transferred outside a frame. -/
def busNext : Option BusPhase → Event → Option BusPhase
  | some .released, .cs .asserted => some .selected
  | some .released, .act _ => some .released
  | some .released, .rst _ => some .released
  | some .released, .busy _ => some .released
  | some .released, .delay _ => some .released
  | some .selected, .dc .command => some .command
  | some .command, .tx _ [_] st => some (.sent (decide (st = .ok)))
  | some (.sent ok), .dc .data => some (.data ok)
  | some (.data true), .tx _ (_ :: _) _ => some .moved
  | some (.data true), .rx _ (_ + 1) _ _ => some .moved
  | some (.data _), .cs .deasserted => some .released
  | some .moved, .cs .deasserted => some .released
  | _, _ => none

/-- A run of events in which every frame is whole. -/
def busOk (es : List Event) : Prop := es.foldl busNext (some .released) = some .released

/-- What every step keeps: the configuration is well formed, the lines are idle (R34, R261), `LSTATE` and `SEQ` fit
(R31, R33), the RAM is in canonical form, the trace is made of whole frames (R145). -/
structure EngineInv (s : State) : Prop where
  cfg   : s.cfg.wf = true
  lines : s.line = Lines.idle
  seq   : seqOk s
  ram   : Memory.wf s.peer.ram
  bus   : busOk (s.trace.map Prod.snd)

/-! ### Tables of requests -/

/-- The requests that are legal in `Idle` only (R273). -/
def isGated : Instr → Bool
  | .gateScanRange _ _ | .updateCtrl1 | .updateCtrl2 | .border _ | .patternFillPrimary _ _ _
  | .patternFillSecondary _ _ _ | .dataEntryMode _ | .ramBankSelect _ | .selectTempSensor | .readTemperature
  | .softwareReset | .masterActivation | .boosterSoftStart | .readUserId | .nop | .setHRange _ _ | .setVRange _ _
  | .setStartAddress _ _ | .resetFullRange | .writeRegion _ _ _ _ _ _ | .readRegion _ _ _ _ _ _ | .refresh
  | .printH _ _ _ _ | .printV _ _ _ _ => true
  | _ => false

/-- The requests that can raise `AlignmentError` (R325; R321 names these six and counts seven). -/
def canMisalign : Instr → Bool
  | .setHRange _ _ | .setStartAddress _ _ | .writeRegion _ _ _ _ _ _ | .readRegion _ _ _ _ _ _
  | .printH _ _ _ _ | .printV _ _ _ _ => true
  | _ => false

/-- The requests that write `LSTATE` (R35). -/
def writesLState : Instr → Bool
  | .reset | .init | .refresh => true
  | _ => false

/-- The instructions after which the display RAM of the reference peer can differ: bulk writes, pattern fills, the text
unit, the raw channel, which can send any of them, and bulk reads, after which a byte that was unknown is known (log 10). -/
def mayStore : Instr → Bool
  | .opWriteRamPrimary _ | .opWriteRamSecondary _ | .opPatternPrimary _ | .opPatternSecondary _ | .send _ _
  | .receive _ _ | .patternFillPrimary _ _ _ | .patternFillSecondary _ _ _ | .writeRegion _ _ _ _ _ _
  | .readRegion _ _ _ _ _ _ | .opReadRam _ | .printH _ _ _ _ | .printV _ _ _ _ => true
  | _ => false

/-- The instructions that can change a shadow register (R42 to R44): those that send a range or counter frame or a bulk
frame, and those that invalidate every shadow. -/
def tracksWindow : Instr → Bool
  | .opRamXRange _ _ | .opRamYRange _ _ | .opRamXCounter _ | .opRamYCounter _ | .opWriteRamPrimary _
  | .opWriteRamSecondary _ | .opReadRam _ | .send _ _ | .receive _ _ | .setHRange _ _ | .setVRange _ _
  | .setStartAddress _ _ | .resetFullRange | .writeRegion _ _ _ _ _ _ | .readRegion _ _ _ _ _ _ | .reset | .init
  | .printH _ _ _ _ | .printV _ _ _ _ => true
  | _ => false

/-- The next `n` samples of the busy line read asserted. -/
def busyFor (n : Nat) (s : State) : Prop :=
  (s.env.refPeer = true → s.peer.busy = true) ∧ ∀ k < n, s.env.busyAt (s.env.busyPos + k) = true

/-- The busy line reads asserted `n` times and then deasserted. -/
def busyThenReady (n : Nat) (s : State) : Prop :=
  busyFor n s ∧ (s.env.busyAt (s.env.busyPos + n) = false)

/-- The events of `n` polls that read asserted, each followed by the delay (R266). -/
def pollEvents : Nat → List Event
  | 0 => []
  | n + 1 => .busy true :: .delay Config.tPoll :: pollEvents n

/-! ### The sequences of R129, R241, R245, R263 and R297 as frames -/

/-- A frame of the sequences below: opcode and payload. -/
abbrev Frame := Byte × List Byte

/-- The two range frames of a region (R241). -/
def windowFrames (left top : W16) (width height : Nat) : List Frame :=
  [(0x44, [xsField left.toNat, xeField left.toNat width]),
   (0x45, le16 (ysField top.toNat) ++ le16 (yeField top.toNat height))]

/-- The two counter frames of a start address (R226). -/
def counterFrames (x y : W16) : List Frame := [(0x4E, [cxField x.toNat]), (0x4F, le16 y)]

/-- The frames of one plane of `WRITE_REGION`, none for an absent buffer (R241, R242). -/
def planeFrames (op : Byte) (left top : W16) : Option (List Byte) → List Frame
  | none => []
  | some b => counterFrames left top ++ [(op, b)]

/-- The frames of `WRITE_REGION` (R241). -/
def regionFrames (left top width height : W16) (p q : Option (List Byte)) : List Frame :=
  windowFrames left top width.toNat height.toNat ++ planeFrames 0x24 left top p ++ planeFrames 0x26 left top q

/-- The shadows after both range frames (R224, R225). -/
def Shadow.window (left top : W16) (width height : Nat) (h : Shadow) : Shadow :=
  { h with
    xs := xsField left.toNat, xe := xeField left.toNat width, hv := true
    ys := ysField top.toNat, ye := yeField top.toNat height, vv := true }

/-- The shadows after the counter frames and a bulk frame (R226, R43). -/
def Shadow.moved (x y : W16) (h : Shadow) : Shadow :=
  { h with cx := cxField x.toNat, cy := y, cxv := false, cyv := false }

/-- The state after the bank frame, the counter frames and the read of one plane (R245). -/
def State.fetched (b : Bank) (left top : W16) (n : Nat) (s : State) : State :=
  (State.wroteAll ((0x41, [bankCode b]) :: counterFrames left top) s).didRead 0x27 (2 + n)

/-- The bytes that read returns, the two dummy bytes dropped (R245, R246). -/
def State.fetchedData (b : Bank) (left top : W16) (n : Nat) (s : State) : List Byte :=
  (offered 0x27 (2 + n) (State.wroteAll ((0x41, [bankCode b]) :: counterFrames left top) s)).1.drop 2

/-- The state after the reset pulse of a request that starts with it (R260, R263): the shadows invalid, `LSTATE`
`Resetting`. -/
def State.pulsed (s : State) : State :=
  { s with
    sh := s.sh.invalidate
    lstate := .resetting
    trace := s.trace ++ stamp .resetting [.rst .low, .delay 2, .rst .high, .delay 10]
    seq := s.seq.map (Seq.after 4)
    line := { s.line with rst := .high }
    peer := if s.env.refPeer then s.peer.hardReset else s.peer }

/-- The state after one poll that reads deasserted (R266). -/
def State.polledReady (s : State) : State :=
  { s with
    trace := s.trace ++ [(s.lstate, .busy false)]
    seq := s.seq.map (Seq.after 1)
    env := { s.env with busyPos := s.env.busyPos + 1 }
    peer := if s.env.refPeer then { s.peer with busy := false } else s.peer }

/-- The state after `n` polls that read asserted, each followed by the delay (R266). -/
def State.polledBusy (n : Nat) (s : State) : State :=
  { s with
    trace := s.trace ++ stamp s.lstate (pollEvents n)
    seq := s.seq.map (Seq.after (2 * n))
    env := { s.env with busyPos := s.env.busyPos + n } }

/-- The frames of `INIT` after the user-ID read (R263). -/
def initFrames (c : Cfg) : List Frame :=
  [(0x0F, [0x00, 0x00]), (0x01, [lo8 c.resY, hi8 c.resY, 0x00]),
   (0x21, [if c.depth.getLsbD 0 then 0x40 else 0x00, if c.scan = .narrowScan then 0x80 else 0x00]),
   (0x22, [0xF7]), (0x11, [0x03]), (0x18, [0x80])]

/-- The frames of `REFRESH` (R265). -/
def refreshFrames : List Frame := [(0x0C, [0x80, 0x90, 0x90, 0x00]), (0x22, [0xF7]), (0x20, [])]

/-! ### Text (R291 to R298) -/

/-- The cursor after one character (R295). -/
def cursorMove (down : Int) (c : Byte) (cur : Int × Int) : Int × Int :=
  (controlMove down c cur).getD (cur.1 + 1, cur.2)

/-- The cursor after a string. -/
def cursorAfter (down : Int) : List Byte → Int × Int → Int × Int
  | [], cur => cur
  | c :: cs, cur => cursorAfter down cs (cursorMove down c cur)

/-- The printable characters of a string, each with the cell it is drawn at. -/
def drawnCells (down : Int) : List Byte → Int × Int → List (Byte × (Int × Int))
  | [], _ => []
  | c :: cs, cur =>
    if (controlMove down c cur).isSome then drawnCells down cs (cursorMove down c cur)
    else (c, cur) :: drawnCells down cs (cursorMove down c cur)

/-- The five frames of one cell (R297). -/
def cellFrames (origin : Int × Int → W16 × W16) (f : Font) (d : Byte × (Int × Int)) : List Frame :=
  windowFrames (origin d.2).1 (origin d.2).2 f.gw f.gh ++
    counterFrames (origin d.2).1 (origin d.2).2 ++ [(0x24, invertedGlyph f d.1)]

/-- The frames of several cells. -/
def textFrames (origin : Int × Int → W16 × W16) (f : Font) (ds : List (Byte × (Int × Int))) : List Frame :=
  ds.flatMap (cellFrames origin f)

/-- The shadows after several cells (R291). -/
def textShadow (origin : Int × Int → W16 × W16) (f : Font) : List (Byte × (Int × Int)) → Shadow → Shadow
  | [], h => h
  | d :: ds, h =>
    textShadow origin f ds
      (((h.window (origin d.2).1 (origin d.2).2 f.gw f.gh)).moved (origin d.2).1 (origin d.2).2)

/-- The state after a text request that drew the cells `ds`, answered with a cursor (R291, R292). -/
def State.printed (origin : Int × Int → W16 × W16) (f : Font) (ds : List (Byte × (Int × Int))) (cur : Int × Int)
    (s : State) : State :=
  let t := State.wroteAll (textFrames origin f ds) s
  { t with
    sh := textShadow origin f ds s.sh
    rsp := { status := .ok, body := { s.rsp.body with col := cur.1, row := cur.2 } }
    seq := none }

/-! ### The reference peer (R93 to R99) -/

/-- The addresses of a region of one plane (R64). -/
def inRegion (plane : Bank) (left top width height : W16) (a : Nat) : Prop :=
  ∃ i j : Nat, i < width.toNat / 8 ∧ j < height.toNat ∧
    a = ramAddr plane (cxField left.toNat + BitVec.ofNat 8 i) (top + BitVec.ofNat 16 j)

/-- A region that the reference peer is defined on (R99). -/
def regionFits (left top width height : W16) : Prop :=
  left.toNat % 8 = 0 ∧ width.toNat % 8 = 0 ∧ 8 ≤ width.toNat ∧ 1 ≤ height.toNat ∧
    (left.toNat + width.toNat) / 8 - 1 ≤ 255 ∧ top.toNat + height.toNat - 1 ≤ 65535

/-- The reference peer attached, not busy, in the mode `INIT` programs (R99). -/
def peerReady (s : State) : Prop := s.env.refPeer = true ∧ s.peer.busy = false ∧ s.peer.regs.dem = 3

/-- The events a step added to the trace. -/
def addedEvents (s t : State) : List Event := (t.trace.drop s.trace.length).map Prod.snd

/-- An event that is a busy poll. -/
def Event.isPoll : Event → Bool
  | .busy _ => true
  | _ => false

/-- An event that drives the reset line. -/
def Event.isReset : Event → Bool
  | .rst _ => true
  | _ => false

/-- An event that drives the activity line. -/
def Event.isAct : Event → Bool
  | .act _ => true
  | _ => false

/-- The time limit an event carries, if it is a transfer (R148). -/
def Event.timeLimit : Event → Option W32
  | .tx t _ _ => some t
  | .rx t _ _ _ => some t
  | _ => none

/-- The status of an event, if it is a transfer. -/
def Event.transferStatus : Event → Option TransportStatus
  | .tx _ _ st => some st
  | .rx _ _ st _ => some st
  | _ => none

/-- The instructions that contain a busy-wait (R268). -/
def hasBusyWait : Instr → Bool
  | .init | .refresh | .busyWait => true
  | _ => false

end Sys2Proof.Machine
end

