-- ==== Sys2Proof/Certificates/Slice0/Obligations.lean ====
section
/-! DEFINITION. The statements for the provers: what the numbered rules of spec/ say the instructions and the machine do.
`transfersOk n s` says that the next `n` transfers the engine makes are all `Ok`; `State.wrote`, `State.wroteAll` and
`State.didRead` give the whole state after whole frames, so a statement that ends in one of them says that everything it
does not name is unchanged. Such an equality also says what the model chose and the spec leaves open: an `Ok` request
keeps the response fields it does not name (log 14), the trace is kept over the run and stamped (log 20), and what is
"any value" about an attached reference peer is drawn free or forgotten (logs 10, 11, 12, 27). The wire opcodes are
instructions of the model's own port (log 6). A statement that speaks of steps counts them as log 4 cuts them: a step ends
at a poll that reads asserted. -/

open Sys2Proof Sys2Proof.Machine

/-! ### Reset, the step, decoding -/

/-- R47, R361, R8: what engine reset leaves, for every configuration, and that the engine then waits for a request. That
the waiting engine steps to itself on an empty port is the model's choice (logs 5, 32), and so is the trace that starts
empty (log 20). -/
def Obligations.EngineReset : Prop :=
  ∀ c : Cfg, c.wf = true →
    State.construct c = some (State.resetWith c) ∧
    (State.resetWith c).cfg = c ∧ (State.resetWith c).lstate = .poweredOff ∧ (State.resetWith c).seq = none ∧
    (State.resetWith c).line = { cs := .deasserted, dc := .data, rst := .high, act := .off } ∧
    (State.resetWith c).sh.hv = false ∧ (State.resetWith c).sh.vv = false ∧
    (State.resetWith c).sh.cxv = false ∧ (State.resetWith c).sh.cyv = false ∧
    (State.resetWith c).trace = [] ∧ step (State.resetWith c) = .next (State.resetWith c)

/-- The invariant of `Obligations.EngineInvariantKept` holds at reset. -/
def Obligations.EngineInvariantAtReset : Prop := EngineInv State.reset

/-- R24, R26: when the engine waits, the next presented item is taken, a request is latched into `REQ`, and the step is
`exec` of the decoded instruction. -/
def Obligations.StepRunsDecodedItem : Prop :=
  ∀ (s : State) (i : Item) (rest : List Item) (instr : Instr),
    s.cfg.wf = true → s.seq = none → s.port = i :: rest → decode i = .ok instr →
    step s = exec instr
      (match i with
       | .request f => { s with port := rest, req := f }
       | .wire _ => { s with port := rest })

/-- R8, R126, R112: what the step refuses, and that it waits when nothing is presented. Refusing an unassigned opcode that is
handed to the framer directly, and a step that waits, are the model's choices (logs 5, 15, 32). -/
def Obligations.StepStops : Prop :=
  ∀ s : State,
    (s.cfg.wf = false → step s = .refused .illFormedConfig) ∧
    (s.cfg.wf = true → s.seq = none → s.port = [] → step s = .next s) ∧
    (∀ f rest, s.cfg.wf = true → s.seq = none → s.port = .request f :: rest → 0x1C < f.tag.toNat →
      step s = .refused (.noSuchItem f.tag)) ∧
    (∀ f rest, s.cfg.wf = true → s.seq = none → s.port = .wire f :: rest → f.cmd ∉ assignedOpcodes →
      step s = .refused (.noSuchItem f.cmd))

/-- R127: the tags 0x00 to 0x1C are the requests; no other tag has a meaning (R126). -/
def Obligations.RequestTags : Prop :=
  ∀ f : ReqFrame, (∃ i, decodeRequest f = .ok i) ↔ f.tag.toNat ≤ 0x1C

/-- A few words and frames, written out from R110, R119 and R127. -/
def Obligations.DecodesWords : Prop :=
  decode (.wire { cmd := 0x01, body := .send [0x28, 0x01, 0x00] }) = .ok (.opGateScan 296 0) ∧
  decode (.wire { cmd := 0x44, body := .send [0x01, 0x02] }) = .ok (.opRamXRange 1 2) ∧
  decode (.wire { cmd := 0x45, body := .send [0x0A, 0x00, 0x1D, 0x00] }) = .ok (.opRamYRange 10 29) ∧
  decode (.wire { cmd := 0x2E, body := .recv 10 }) = .ok .opReadUserId ∧
  decode (.wire { cmd := 0x27, body := .recv 8 }) = .ok (.opReadRam 6) ∧
  decode (.wire { cmd := 0xEE, body := .send [] }) = .error (.unassignedOpcode 0xEE) ∧
  decode (.request { ReqFrame.blank 0x05 with a0 := 0x0007 }) = .ok (.border .alternateRed) ∧
  decode (.request { ReqFrame.blank 0x11 with a0 := 8, a2 := 16 }) = .ok (.setHRange 8 16) ∧
  decode (.request (ReqFrame.blank 0x1D)) = .error (.unknownTag 0x1D)

/-- Decoding what was encoded gives the instruction back, for every instruction and every operand (R110, R119, R127). -/
def Obligations.DecodeEncode : Prop := ∀ i : Instr, decode (encode i) = .ok i

/-- A wire frame that decodes is the one its instruction encodes to: no two frames have one instruction, and no bit of a
frame is dropped (R100, R110, R112). -/
def Obligations.EncodeDecodeWire : Prop :=
  ∀ (f : WireFrame) (i : Instr), decode (.wire f) = .ok i → encode i = .wire f

/-- R118: the bit layout of both pattern bytes, for every pair of strides and every colour; bit 6 of the secondary form
is shared. -/
def Obligations.PatternBytes : Prop :=
  ∀ (ps ss : BitVec 3) (c : Color),
    (packPatternPrimary ps ss c).toNat = 128 * ((colorCode c).toNat % 2) + 16 * ss.toNat + ps.toNat ∧
    (packPatternSecondary ps ss c).toNat =
      64 * max (ss.toNat / 4) ((colorCode c).toNat / 2) + 16 * (ss.toNat % 4) + ps.toNat

/-- R130: the unpack functions undo the pack functions; those of the ranges give both fields whatever they are, and the
window in pixels or rows where the end is not below the start. -/
def Obligations.UnpackUndoesPack : Prop :=
  (∀ a b c d e, unpackUc1 (packUc1 a b c d e) = (a, b, c, d, e)) ∧
  (∀ c, unpackBorder (packBorder c) = (colorCode c, true)) ∧
  (∀ ps ss c, unpackPatternPrimary (packPatternPrimary ps ss c) = (ps, ss, (colorCode c).getLsbD 0)) ∧
  (∀ ps ss c, unpackPatternSecondary (packPatternSecondary ps ss c) =
    (ps, ss.extractLsb' 0 2, ss.getLsbD 2 || (colorCode c).getLsbD 1)) ∧
  (∀ r : W16, unpackGate (lo8 r) (hi8 r) 0 = (r, 0)) ∧
  (∀ xs xe, (unpackXRange xs xe).1 = xs ∧ (unpackXRange xs xe).2.1 = xe ∧
    ((unpackXRange xs xe).2.2 = none ↔ xe.toNat < xs.toNat)) ∧
  (∀ ys ye : W16, (unpackYRange (lo8 ys) (hi8 ys) (lo8 ye) (hi8 ye)).1 = ys ∧
    (unpackYRange (lo8 ys) (hi8 ys) (lo8 ye) (hi8 ye)).2.1 = ye ∧
    ((unpackYRange (lo8 ys) (hi8 ys) (lo8 ye) (hi8 ye)).2.2 = none ↔ ye.toNat < ys.toNat))

/-- R130 with R113: a window that fits the byte column range is recovered in pixels from the two bytes sent. -/
def Obligations.WindowUnpacksX : Prop :=
  ∀ left width : W16, left.toNat % 8 = 0 → width.toNat % 8 = 0 → 8 ≤ width.toNat → left.toNat + width.toNat ≤ 2048 →
    unpackXRange (xsField left.toNat) (xeField left.toNat width.toNat) =
      (xsField left.toNat, xeField left.toNat width.toNat, some (left.toNat, width.toNat))

/-- R130 with R114: a window that fits the row range is recovered in rows from the four bytes sent. -/
def Obligations.WindowUnpacksY : Prop :=
  ∀ top height : W16, 1 ≤ height.toNat → top.toNat + height.toNat ≤ 65536 →
    unpackYRange (lo8 (ysField top.toNat)) (hi8 (ysField top.toNat))
      (lo8 (yeField top.toNat height.toNat)) (hi8 (yeField top.toNat height.toNat)) =
      (ysField top.toNat, yeField top.toNat height.toNat, some (top.toNat, height.toNat))

/-! ### Wire opcodes -/

/-- R180 to R187, R189 to R191, R195, R197, R198, R201, R202, R205: the opcodes that carry no shadow. Each is one frame
with its payload and answers `Ok` when its transfers do. That the three voltage opcodes run with a payload of any length,
where R181, R182 and R195 give the length `VOLT_LEN`, is the model's choice (log 28). -/
def Obligations.WirePlainResults : Prop :=
  ∀ s : State,
    (∀ r o, transfersOk 2 s → exec (.opGateScan r o) s = .next (s.wrote 0x01 [lo8 r, hi8 r, o]).answeredOk) ∧
    (∀ d, transfersOk (transfersOf d) s → exec (.opGateVoltage d) s = .next (s.wrote 0x03 d).answeredOk) ∧
    (∀ d, transfersOk (transfersOf d) s → exec (.opSourceVoltage d) s = .next (s.wrote 0x04 d).answeredOk) ∧
    (∀ a b c d, transfersOk 2 s → exec (.opBoosterSoftStart a b c d) s = .next (s.wrote 0x0C [a, b, c, d]).answeredOk) ∧
    (∀ r, transfersOk 2 s → exec (.opGateScanStart r) s = .next (s.wrote 0x0F [lo8 r, hi8 r]).answeredOk) ∧
    (∀ m, transfersOk 2 s → exec (.opDataEntryMode m) s = .next (s.wrote 0x11 [m]).answeredOk) ∧
    (transfersOk 1 s → exec .opSwReset s = .next (s.wrote 0x12 []).answeredOk) ∧
    (∀ b, transfersOk 2 s → exec (.opTempSensorSelect b) s = .next (s.wrote 0x18 [b]).answeredOk) ∧
    (transfersOk 1 s → exec .opMasterActivation s = .next (s.wrote 0x20 []).answeredOk) ∧
    (∀ u, transfersOk 2 s → exec (.opUpdateControl1 u) s = .next (s.wrote 0x21 [lo8 u, hi8 u]).answeredOk) ∧
    (∀ b, transfersOk 2 s → exec (.opUpdateControl2 b) s = .next (s.wrote 0x22 [b]).answeredOk) ∧
    (∀ d, transfersOk (transfersOf d) s → exec (.opVcomVoltage d) s = .next (s.wrote 0x2C d).answeredOk) ∧
    (∀ b, transfersOk 2 s → exec (.opBorder b) s = .next (s.wrote 0x3C [b]).answeredOk) ∧
    (∀ b, transfersOk 2 s → exec (.opRamReadBank b) s = .next (s.wrote 0x41 [b]).answeredOk) ∧
    (∀ b, transfersOk 2 s → exec (.opPatternSecondary b) s = .next (s.wrote 0x46 [b]).answeredOk) ∧
    (∀ b, transfersOk 2 s → exec (.opPatternPrimary b) s = .next (s.wrote 0x47 [b]).answeredOk) ∧
    (transfersOk 1 s → exec .opNop s = .next (s.wrote 0x7F []).answeredOk)

/-- R199, R200, R203, R204 with R42, and R192, R193 with R43: the opcodes that carry a shadow group. -/
def Obligations.WireWindowResults : Prop :=
  ∀ s : State,
    (∀ a b, transfersOk 2 s → exec (.opRamXRange a b) s =
      .next { s.wrote 0x44 [a, b] with sh := { s.sh with xs := a, xe := b, hv := true } }.answeredOk) ∧
    (∀ a b, transfersOk 2 s → exec (.opRamYRange a b) s =
      .next { s.wrote 0x45 [lo8 a, hi8 a, lo8 b, hi8 b] with
        sh := { s.sh with ys := a, ye := b, vv := true } }.answeredOk) ∧
    (∀ x, transfersOk 2 s → exec (.opRamXCounter x) s =
      .next { s.wrote 0x4E [x] with sh := { s.sh with cx := x, cxv := true } }.answeredOk) ∧
    (∀ y, transfersOk 2 s → exec (.opRamYCounter y) s =
      .next { s.wrote 0x4F [lo8 y, hi8 y] with sh := { s.sh with cy := y, cyv := true } }.answeredOk) ∧
    (∀ d, transfersOk (transfersOf d) s → exec (.opWriteRamPrimary d) s =
      .next { s.wrote 0x24 d with sh := { s.sh with cxv := false, cyv := false } }.answeredOk) ∧
    (∀ d, transfersOk (transfersOf d) s → exec (.opWriteRamSecondary d) s =
      .next { s.wrote 0x26 d with sh := { s.sh with cxv := false, cyv := false } }.answeredOk)

/-- R188, R194, R196: the opcodes that receive. The place of the received bytes in `RSP` is the model's choice (log 29). -/
def Obligations.WireReadResults : Prop :=
  ∀ s : State, transfersOk 2 s →
    exec .opTempRead s = .next (modifyBody (fun b => { b with value := temperature s.cfg (offered 0x1B 2 s).1 })
      (s.didRead 0x1B 2)).answeredOk ∧
    exec .opReadUserId s = .next (modifyBody (fun b => { b with data := (offered 0x2E 10 s).1 })
      (s.didRead 0x2E 10)).answeredOk ∧
    (∀ n, exec (.opReadRam n) s =
      .next { modifyBody (fun b => { b with data := (offered 0x27 (2 + n) s).1.drop 2 }) (s.didRead 0x27 (2 + n)) with
        sh := { s.sh with cxv := false, cyv := false } }.answeredOk)

/-! ### Command channel -/

/-- R140, R44: `SEND` is one frame with the host's bytes, in either stable state; every shadow becomes invalid. -/
def Obligations.SendResult : Prop :=
  ∀ (s : State) (c : Byte) (d : List Byte), transfersOk (transfersOf d) s →
    exec (.send c d) s = .next { s.wrote c d with sh := s.sh.invalidate }.answeredOk

/-- R141, R44: `RECEIVE` returns all the received bytes, dummy bytes included; with no byte to receive the frame has no
`Rx`. -/
def Obligations.ReceiveResult : Prop :=
  ∀ (s : State) (c : Byte),
    (∀ k, 0 < k → transfersOk 2 s → exec (.receive c k) s =
      .next { modifyBody (fun b => { b with data := (offered c k s).1 }) (s.didRead c k) with
        sh := s.sh.invalidate }.answeredOk) ∧
    (transfersOk 1 s → exec (.receive c 0) s =
      .next { modifyBody (fun b => { b with data := [] }) (s.wrote c []) with sh := s.sh.invalidate }.answeredOk)

/-- R144: the two failure paths of a frame, as `SEND` shows them: the events, the status with the transport's code, the
lines restored, the payload never handed over when the opcode fails, every other response field a free value (log 13). -/
def Obligations.SendFails : Prop :=
  ∀ (s t : State) (c : Byte) (d : List Byte) (code : Nat), exec (.send c d) s = .next t →
    (s.env.transfer s.env.xferPos = .fail code →
      t.rsp = { status := .transportError code, body := Config.unspecifiedResponse s.free } ∧
      t.trace = s.trace ++ stamp s.lstate (opcodeFailEvents s.cfg c code) ∧
      t.line = restored s ∧ t.lstate = s.lstate ∧ t.sh = s.sh.invalidate ∧ t.cfg = s.cfg ∧ t.seq = none) ∧
    (d ≠ [] → s.env.transfer s.env.xferPos = .ok → s.env.transfer (s.env.xferPos + 1) = .fail code →
      t.rsp = { status := .transportError code, body := Config.unspecifiedResponse s.free } ∧
      t.trace = s.trace ++ stamp s.lstate (payloadFailEvents s.cfg c d code) ∧
      t.line = restored s ∧ t.lstate = s.lstate ∧ t.sh = s.sh.invalidate ∧ t.cfg = s.cfg ∧ t.seq = none)

/-! ### Register encoders -/

/-- R163 to R167, R169 to R171, R173 to R175, R177: the encoder requests of one write frame, in `Idle`. -/
def Obligations.EncoderResults : Prop :=
  ∀ s : State, s.lstate = .idle →
    (transfersOk 2 s → exec .updateCtrl1 s = .next (s.wrote 0x21
      [if s.cfg.depth.getLsbD 0 then 0x40 else 0x00, if s.cfg.scan = .narrowScan then 0x80 else 0x00]).answeredOk) ∧
    (transfersOk 2 s → exec .updateCtrl2 s = .next (s.wrote 0x22 [0xF7]).answeredOk) ∧
    (∀ c, transfersOk 2 s → exec (.border c) s = .next (s.wrote 0x3C [4 + (colorCode c).setWidth 8]).answeredOk) ∧
    (∀ ps ss c, transfersOk 2 s → exec (.patternFillPrimary ps ss c) s =
      .next (s.wrote 0x47 [packPatternPrimary ps ss c]).answeredOk) ∧
    (∀ ps ss c, transfersOk 2 s → exec (.patternFillSecondary ps ss c) s =
      .next (s.wrote 0x46 [packPatternSecondary ps ss c]).answeredOk) ∧
    (∀ m, transfersOk 2 s → exec (.dataEntryMode m) s = .next (s.wrote 0x11 [m.setWidth 8]).answeredOk) ∧
    (∀ b, transfersOk 2 s → exec (.ramBankSelect b) s =
      .next (s.wrote 0x41 [if b = .black then 0x00 else 0x01]).answeredOk) ∧
    (transfersOk 2 s → exec .selectTempSensor s = .next (s.wrote 0x18 [0x80]).answeredOk) ∧
    (transfersOk 1 s → exec .softwareReset s = .next (s.wrote 0x12 []).answeredOk) ∧
    (transfersOk 1 s → exec .masterActivation s = .next (s.wrote 0x20 []).answeredOk) ∧
    (transfersOk 2 s → exec .boosterSoftStart s = .next (s.wrote 0x0C [0x80, 0x90, 0x90, 0x00]).answeredOk) ∧
    (transfersOk 1 s → exec .nop s = .next (s.wrote 0x7F []).answeredOk)

/-- R162: the start-row frame, then the end-row frame with the order byte 0. -/
def Obligations.GateScanRangeResult : Prop :=
  ∀ (s : State) (a b : W16), s.lstate = .idle → transfersOk 4 s →
    exec (.gateScanRange a b) s =
      .next (s.wroteAll [(0x0F, [lo8 a, hi8 a]), (0x01, [lo8 b, hi8 b, 0x00])]).answeredOk

/-- R172: the temperature is the two received bytes in the configured order, shifted right by 4. -/
def Obligations.ReadTemperatureResult : Prop :=
  ∀ s : State, s.lstate = .idle → transfersOk 2 s →
    ∃ r0 r1 v, (offered 0x1B 2 s).1 = [r0, r1] ∧
      v.toNat = (if s.cfg.tempFirstByteIsHigh then 256 * r0.toNat + r1.toNat else r0.toNat + 256 * r1.toNat) / 16 ∧
      exec .readTemperature s = .next (modifyBody (fun b => { b with value := v }) (s.didRead 0x1B 2)).answeredOk

/-- R176: the ten bytes of the user ID, none dropped. -/
def Obligations.ReadUserIdResult : Prop :=
  ∀ s : State, s.lstate = .idle → transfersOk 2 s →
    ∃ r, (offered 0x2E 10 s).1 = r ∧ r.length = 10 ∧
      exec .readUserId s = .next (modifyBody (fun b => { b with data := r }) (s.didRead 0x2E 10)).answeredOk

/-! ### Address window -/

/-- R220, R221, R222 with R113, R229: the three window requests with their shadows, in `Idle` and aligned, the bytes in
arithmetic modulo 256 for every aligned 16-bit operand, degenerate windows included. -/
def Obligations.WindowResults : Prop :=
  ∀ s : State, s.lstate = .idle →
    (∀ l w : W16, l.toNat % 8 = 0 → w.toNat % 8 = 0 → transfersOk 2 s →
      ∃ xs xe : Byte, xs.toNat = l.toNat / 8 % 256 ∧ (xe.toNat : Int) = ((l.toNat + w.toNat) / 8 - 1 : Int) % 256 ∧
        exec (.setHRange l w) s =
          .next { s.wrote 0x44 [xs, xe] with sh := { s.sh with xs := xs, xe := xe, hv := true } }.answeredOk) ∧
    (∀ t h : W16, transfersOk 2 s → exec (.setVRange t h) s =
      .next { s.wrote 0x45 [lo8 t, hi8 t, lo8 (t + h - 1), hi8 (t + h - 1)] with
        sh := { s.sh with ys := t, ye := t + h - 1, vv := true } }.answeredOk) ∧
    (∀ x y : W16, x.toNat % 8 = 0 → transfersOk 4 s →
      ∃ cx : Byte, cx.toNat = x.toNat / 8 % 256 ∧ exec (.setStartAddress x y) s =
        .next { s.wroteAll [(0x4E, [cx]), (0x4F, [lo8 y, hi8 y])] with
          sh := { s.sh with cx := cx, cy := y, cxv := true, cyv := true } }.answeredOk)

/-- R223: both ranges set to the configured resolution, whatever the scan mode; never misaligned on a well-formed
configuration. -/
def Obligations.ResetFullRangeResult : Prop :=
  ∀ s : State, s.cfg.wf = true → s.lstate = .idle → transfersOk 4 s →
    exec .resetFullRange s =
      .next { s.wroteAll (windowFrames 0 0 s.cfg.resX.toNat s.cfg.resY.toNat) with
        sh := { s.sh with
          xs := 0, xe := xeField 0 s.cfg.resX.toNat, hv := true
          ys := 0, ye := s.cfg.resY - 1, vv := true } }.answeredOk

/-- R44, R226, R144: the four ways in which a transfer of `SET_START_ADDRESS` fails. Where the X counter frame fails the Y
frame is not sent and only `SH.CXV` is cleared; where the Y counter frame fails the X group stays written and valid and
only `SH.CYV` is cleared. -/
def Obligations.StartAddressFails : Prop :=
  ∀ (s t : State) (x y : W16) (code : Nat), s.lstate = .idle → x.toNat % 8 = 0 → exec (.setStartAddress x y) s = .next t →
    let cx := cxField x.toNat
    let ended := fun (sh : Shadow) (es : List Event) =>
      t.rsp.status = .transportError code ∧ t.sh = sh ∧ t.trace = s.trace ++ stamp .idle es ∧ t.lstate = .idle ∧
        t.seq = none
    (s.env.transfer s.env.xferPos = .fail code →
      ended { s.sh with cxv := false } (opcodeFailEvents s.cfg 0x4E code)) ∧
    (transfersOk 1 s → s.env.transfer (s.env.xferPos + 1) = .fail code →
      ended { s.sh with cxv := false } (payloadFailEvents s.cfg 0x4E [cx] code)) ∧
    (transfersOk 2 s → s.env.transfer (s.env.xferPos + 2) = .fail code →
      ended { s.sh with cx := cx, cxv := true, cyv := false }
        (writeEvents s.cfg 0x4E [cx] ++ opcodeFailEvents s.cfg 0x4F code)) ∧
    (transfersOk 3 s → s.env.transfer (s.env.xferPos + 3) = .fail code →
      ended { s.sh with cx := cx, cxv := true, cyv := false }
        (writeEvents s.cfg 0x4E [cx] ++ payloadFailEvents s.cfg 0x4F [lo8 y, hi8 y] code))

/-! ### Region transfer -/

/-- R241, R242: the frames of `WRITE_REGION` in order, for each of the four choices of buffers, and its shadows. -/
def Obligations.WriteRegionResult : Prop :=
  ∀ (s : State) (l t w h : W16) (p q : Option (List Byte)),
    s.lstate = .idle → writeRegionOk w h p q = true → l.toNat % 8 = 0 → w.toNat % 8 = 0 →
    transfersOk (transfersOfAll (regionFrames l t w h p q)) s →
    exec (.writeRegion l t w h p q) s =
      .next { s.wroteAll (regionFrames l t w h p q) with
        sh := if p = none ∧ q = none then s.sh.window l t w.toNat h.toNat
          else (s.sh.window l t w.toNat h.toNat).moved l t }.answeredOk

/-- R23: a buffer that does not hold exactly `n` bytes is refused (log 15). -/
def Obligations.WriteRegionContract : Prop :=
  ∀ (s : State) (l t w h : W16) (p q : Option (List Byte)),
    ((∃ b, p = some b ∧ b.length ≠ w.toNat / 8 * h.toNat) ∨ (∃ b, q = some b ∧ b.length ≠ w.toNat / 8 * h.toNat)) →
    exec (.writeRegion l t w h p q) s = .refused .bufferLength

/-- R245, R246, R247: the frames of `READ_REGION` in order, for each choice of planes, the two dummy bytes of each plane
dropped, and its shadows. -/
def Obligations.ReadRegionResult : Prop :=
  ∀ (s : State) (l t w h : W16), s.lstate = .idle → l.toNat % 8 = 0 → w.toNat % 8 = 0 →
    let n := w.toNat / 8 * h.toNat
    let a := s.wroteAll (windowFrames l t w.toNat h.toNat)
    let sh := s.sh.window l t w.toNat h.toNat
    (transfersOk 4 s → exec (.readRegion l t w h false false) s = .next { a with sh := sh }.answeredOk) ∧
    (transfersOk 12 s → exec (.readRegion l t w h true false) s =
      .next { modifyBody (fun b => { b with p := a.fetchedData .black l t n }) (a.fetched .black l t n) with
        sh := sh.moved l t }.answeredOk) ∧
    (transfersOk 12 s → exec (.readRegion l t w h false true) s =
      .next { modifyBody (fun b => { b with s := a.fetchedData .red l t n }) (a.fetched .red l t n) with
        sh := sh.moved l t }.answeredOk) ∧
    (transfersOk 20 s → exec (.readRegion l t w h true true) s =
      .next { modifyBody (fun b => { b with p := a.fetchedData .black l t n,
                                            s := (a.fetched .black l t n).fetchedData .red l t n })
          ((a.fetched .black l t n).fetched .red l t n) with
        sh := sh.moved l t }.answeredOk)

/-- R245: each wanted plane's result has exactly `n` bytes, whatever the environment offers. -/
def Obligations.ReadRegionLengths : Prop :=
  ∀ (s u : State) (l t w h : W16) (a b : Bool), exec (.readRegion l t w h a b) s = .next u → u.rsp.status = .ok →
    (a = true → u.rsp.body.p.length = w.toNat / 8 * h.toNat) ∧ (b = true → u.rsp.body.s.length = w.toNat / 8 * h.toNat)

/-- R99: on the reference peer, in the mode `INIT` programs, what `WRITE_REGION` wrote to a plane `READ_REGION` of the same
region returns, and the read leaves the display RAM as it was. The peer is the attached one of log 9, and how its counter
walks is log 23. -/
def Obligations.RegionRoundTrip : Prop :=
  ∀ (s : State) (l t w h : W16) (b : List Byte), regionFits l t w h → peerReady s → s.lstate = .idle →
    b.length = w.toNat / 8 * h.toNat → transfersOk 22 s →
    (∃ u v, exec (.writeRegion l t w h (some b) none) s = .next u ∧ exec (.readRegion l t w h true false) u = .next v ∧
      u.rsp.status = .ok ∧ v.rsp.status = .ok ∧ v.rsp.body.p = b ∧ v.peer.ram = u.peer.ram) ∧
    (∃ u v, exec (.writeRegion l t w h none (some b)) s = .next u ∧ exec (.readRegion l t w h false true) u = .next v ∧
      u.rsp.status = .ok ∧ v.rsp.status = .ok ∧ v.rsp.body.s = b ∧ v.peer.ram = u.peer.ram)

/-- R64, R95: on the reference peer, `WRITE_REGION` puts byte `i` of the buffer at byte column `left/8 + i mod w8` and row
`top + i div w8` of its plane, and leaves every other byte of the display RAM alone. The peer is the attached one of log
9, and how its counter walks is log 23. -/
def Obligations.WriteRegionStores : Prop :=
  ∀ (s u : State) (l t w h : W16) (b : List Byte), regionFits l t w h → peerReady s → s.lstate = .idle →
    b.length = w.toNat / 8 * h.toNat → transfersOk 10 s →
    (exec (.writeRegion l t w h (some b) none) s = .next u →
      (∀ i < b.length, ramRead u.peer.ram (ramAddr .black (cxField l.toNat + BitVec.ofNat 8 (i % (w.toNat / 8)))
        (t + BitVec.ofNat 16 (i / (w.toNat / 8)))) = b[i]?) ∧
      (∀ a, ¬ inRegion .black l t w h a → ramRead u.peer.ram a = ramRead s.peer.ram a)) ∧
    (exec (.writeRegion l t w h none (some b)) s = .next u →
      (∀ i < b.length, ramRead u.peer.ram (ramAddr .red (cxField l.toNat + BitVec.ofNat 8 (i % (w.toNat / 8)))
        (t + BitVec.ofNat 16 (i / (w.toNat / 8)))) = b[i]?) ∧
      (∀ a, ¬ inRegion .red l t w h a → ramRead u.peer.ram a = ramRead s.peer.ram a))

/-! ### Lifecycle -/

/-- R260: `RESET` is the pulse and the hold, nothing on the bus, and ends in `PoweredOff` with every shadow invalid. What
the pulse does to an attached reference peer is the model's choice (logs 11, 27). -/
def Obligations.ResetResult : Prop :=
  ∀ s : State, exec .reset s = .next { s.pulsed with lstate := .poweredOff }.answeredOk

/-- R263: `INIT` with the transfers it makes `Ok`. Where its first poll reads deasserted it runs to its end in `Idle`; where
that poll reads asserted the step ends with the request at its next poll, in `AwaitingReady`, nothing else sent; that a step
ends there is the model's choice (log 4). What the two resets do to an attached reference peer is the model's choice (logs
11, 27). -/
def Obligations.InitResult : Prop :=
  ∀ s : State,
    let a := { (start tagInit s).pulsed with lstate := .awaitingReady }.wrote 0x12 []
    (transfersOk 15 s → busyLevel a = false → exec .init s =
      .next { ({ a.polledReady with lstate := .configuring }.didRead 0x2E 10).wroteAll (initFrames s.cfg) with
        lstate := .idle }.answeredOk) ∧
    (transfersOk 1 s → busyLevel a = true → exec .init s = .next (a.polledBusy 1) ∧
      (a.polledBusy 1).seq = some { tag := 0x18, index := if s.cfg.hasAct then 13 else 11 } ∧
      (a.polledBusy 1).lstate = .awaitingReady ∧ (a.polledBusy 1).sh = s.sh.invalidate)

/-- R265: `REFRESH` in `Idle` with every transfer `Ok`. Where its first poll reads deasserted it ends in `Idle`; where that
poll reads asserted the step ends with the request at its next poll, in `Updating`; that a step ends there is the model's
choice (log 4). -/
def Obligations.RefreshResult : Prop :=
  ∀ s : State, s.lstate = .idle → transfersOk 5 s →
    let a := { start tagRefresh s with lstate := .updating }.wroteAll refreshFrames
    (busyLevel a = false → exec .refresh s = .next { a.polledReady with lstate := .idle }.answeredOk) ∧
    (busyLevel a = true → exec .refresh s = .next (a.polledBusy 1) ∧
      (a.polledBusy 1).seq = some { tag := 0x19, index := if s.cfg.hasAct then 25 else 19 } ∧
      (a.polledBusy 1).lstate = .updating ∧ (a.polledBusy 1).sh = s.sh)

/-- R266: `BUSY_WAIT` with the line deasserted is one poll; with it asserted, a poll and a delay, and the request stays at
its next poll, where the step ends by the model's choice (log 4). -/
def Obligations.BusyWaitResult : Prop :=
  ∀ s : State,
    (busyLevel s = false → exec .busyWait s = .next s.polledReady.answeredOk) ∧
    (busyLevel s = true → exec .busyWait s = .next ((start tagBusyWait s).polledBusy 1) ∧
      ((start tagBusyWait s).polledBusy 1).seq = some { tag := 0x1A, index := 2 })

/-- R267: while the busy line reads asserted the waiting request neither ends nor changes `LSTATE`, and no other request
is taken, for any number of steps. That a step is one poll and one delay here is the model's choice (log 4). -/
def Obligations.BusyLineHangs : Prop :=
  ∀ (n : Nat) (s : State) (q : Seq), s.cfg.wf = true → s.seq = some q →
    (q.tag = tagInit ∨ q.tag = tagRefresh ∨ q.tag = tagBusyWait) → busyFor n s →
    Host.Core.run Sys2Proof.core n s = .next (s.polledBusy n)

/-- R263, R265, R266: a request that waits ends in the step that makes the first poll that reads deasserted, so after `n`
asserted polls in `n + 1` steps, a count that is the model's choice (log 4); how each ends, and that an `INIT` whose transfer
fails after the wait ends there, in `PoweredOff`, with no later transfer (R263, R272). -/
def Obligations.WaitEnds : Prop :=
  ∀ (n : Nat) (s : State) (q : Seq), s.cfg.wf = true → s.seq = some q → busyThenReady n s →
    let a := (s.polledBusy n).polledReady
    (q.tag = tagBusyWait → Host.Core.run Sys2Proof.core (n + 1) s = .next a.answeredOk) ∧
    (q.tag = tagRefresh → Host.Core.run Sys2Proof.core (n + 1) s = .next { a with lstate := .idle }.answeredOk) ∧
    (q.tag = tagInit → transfersOk 14 s → Host.Core.run Sys2Proof.core (n + 1) s =
      .next { ({ a with lstate := .configuring }.didRead 0x2E 10).wroteAll (initFrames s.cfg) with
        lstate := .idle }.answeredOk) ∧
    (q.tag = tagInit → ∀ k code, k < 14 → transfersOk k s → s.env.transfer (s.env.xferPos + k) = .fail code →
      ∃ t, Host.Core.run Sys2Proof.core (n + 1) s = .next t ∧ t.lstate = .poweredOff ∧
        t.rsp.status = .transportError code ∧ t.seq = none ∧ t.env.xferPos = s.env.xferPos + k + 1 ∧ t.sh = s.sh)

/-- R272, R32, R35: where `LSTATE` goes, for every instruction and every outcome of the step that starts it, and for every
outcome of a step that goes on with a waiting request. That a request can be left waiting at the end of a step is the
model's choice (log 4). -/
def Obligations.LifecycleTransitions : Prop :=
  (∀ (i : Instr) (s t : State), exec i s = .next t →
    (writesLState i = false → t.lstate = s.lstate) ∧
    (i = .reset → t.lstate = .poweredOff ∧ t.seq = none) ∧
    (i = .init → (t.seq = none ∧ t.rsp.status = .ok ∧ t.lstate = .idle) ∨
      (t.seq = none ∧ (∃ code, t.rsp.status = .transportError code) ∧ t.lstate = .poweredOff) ∨
      ((∃ q, t.seq = some q ∧ q.tag = tagInit) ∧ t.lstate = .awaitingReady)) ∧
    (i = .refresh → s.lstate = .idle → (t.seq = none ∧ t.lstate = .idle) ∨
      ((∃ q, t.seq = some q ∧ q.tag = tagRefresh) ∧ t.lstate = .updating)) ∧
    (i = .refresh → s.lstate ≠ .idle → t.lstate = s.lstate ∧ t.seq = none)) ∧
  (∀ (q : Seq) (s t : State), s.seq = some q → resumeWait q s = .next t →
    (t.seq = some { tag := q.tag, index := q.index + 2 } ∧ t.lstate = s.lstate) ∨
    (t.seq = none ∧
      (q.tag = tagInit → (t.rsp.status = .ok ∧ t.lstate = .idle) ∨
        ((∃ code, t.rsp.status = .transportError code) ∧ t.lstate = .poweredOff)) ∧
      (q.tag = tagRefresh → t.rsp.status = .ok ∧ t.lstate = .idle) ∧
      (q.tag = tagBusyWait → t.rsp.status = .ok ∧ t.lstate = s.lstate)))

/-- R273, R323, R161: a gated request outside `Idle` answers `SequenceError` with no event and nothing else changed but the
response frame, whose other fields are free values (log 13). -/
def Obligations.GateRefusesOutsideIdle : Prop :=
  ∀ (i : Instr) (s : State), isGated i = true → wellFormed s.cfg i = true → s.lstate ≠ .idle →
    exec i s = .next (s.answeredFail .sequenceError)

/-- R264, R333: `INIT` ends at its first failing frame in `PoweredOff`, with the frames after it not sent: here the read of
the user ID, after which no frame of the configuration is on the bus. -/
def Obligations.InitUserIdFails : Prop :=
  ∀ (s t : State) (code : Nat), s.env.busyAt s.env.busyPos = false →
    s.env.transfer s.env.xferPos = .ok → s.env.transfer (s.env.xferPos + 1) = .ok →
    s.env.transfer (s.env.xferPos + 2) = .fail code → exec .init s = .next t →
    t.lstate = .poweredOff ∧ t.rsp.status = .transportError code ∧ t.seq = none ∧
      t.trace = s.trace ++ stamp .resetting [.rst .low, .delay 2, .rst .high, .delay 10] ++
        stamp .awaitingReady (writeEvents s.cfg 0x12 [] ++ [.busy false]) ++
        stamp .configuring (readFailEvents s.cfg 0x2E 10 code)

/-! ### Text -/

/-- R295: the cursor table, both variants. -/
def Obligations.CursorMoves : Prop :=
  ∀ (down col row : Int),
    cursorMove down 0x08 (col, row) = (max (col - 1) 0, row) ∧
    cursorMove down 0x09 (col, row) = ((col / 4 + 1) * 4, row) ∧
    cursorMove down 0x0A (col, row) = (0, row + down) ∧
    cursorMove down 0x0D (col, row) = (0, row) ∧
    (∀ c : Byte, c ≠ 0x08 → c ≠ 0x09 → c ≠ 0x0A → c ≠ 0x0D → cursorMove down c (col, row) = (col + 1, row))

/-- R295: a cursor that starts at column 0 never has a negative column; in the horizontal variant no row is negative, in
the vertical one none is positive. -/
def Obligations.CursorSigns : Prop :=
  ∀ str : List Byte,
    0 ≤ (cursorAfter 1 str (0, 0)).1 ∧ 0 ≤ (cursorAfter 1 str (0, 0)).2 ∧
    0 ≤ (cursorAfter (-1) str (0, 0)).1 ∧ (cursorAfter (-1) str (0, 0)).2 ≤ 0

/-- R291, R296, R297, R298, R303: `PRINT_H` draws each printable character with the five frames of its cell, in order, and
returns the final cursor; a string with nothing to draw needs no alignment. The cell of a cursor has its origin at
`left + gw*col` and `top + gh*row`, modulo 65536. -/
def Obligations.PrintHResult : Prop :=
  (∀ (s : State) (left top : W16) (f : Font) (str : List Byte),
    let ds := drawnCells 1 str (0, 0)
    s.cfg.hasText = true → fontOk f = true → s.lstate = .idle →
    (ds = [] ∨ (left.toNat % 8 = 0 ∧ f.gw % 8 = 0)) →
    transfersOk (transfersOfAll (textFrames (originH left top f) f ds)) s →
    exec (.printH left top f str) s = .next (s.printed (originH left top f) f ds (cursorAfter 1 str (0, 0)))) ∧
  (∀ (left top : W16) (f : Font) (col row : Int),
    ((originH left top f (col, row)).1.toNat : Int) = (left.toNat + f.gw * col) % 65536 ∧
    ((originH left top f (col, row)).2.toNat : Int) = (top.toNat + f.gh * row) % 65536)

/-- R292, R298: `PRINT_V`, the axes swapped and the line-feed reversed. The cell of a cursor has its origin at
`left + gw*row` and `top + gh*col`, modulo 65536. -/
def Obligations.PrintVResult : Prop :=
  (∀ (s : State) (left top : W16) (f : Font) (str : List Byte),
    let ds := drawnCells (-1) str (0, 0)
    s.cfg.hasText = true → fontOk f = true → s.lstate = .idle →
    (ds = [] ∨ (left.toNat % 8 = 0 ∧ f.gw % 8 = 0)) →
    transfersOk (transfersOfAll (textFrames (originV left top f) f ds)) s →
    exec (.printV left top f str) s = .next (s.printed (originV left top f) f ds (cursorAfter (-1) str (0, 0)))) ∧
  (∀ (left top : W16) (f : Font) (col row : Int),
    ((originV left top f (col, row)).1.toNat : Int) = (left.toNat + f.gw * row) % 65536 ∧
    ((originV left top f (col, row)).2.toNat : Int) = (top.toNat + f.gh * col) % 65536)

/-- R296: the bytes of a cell are the glyph's, each complemented, none moved. -/
def Obligations.GlyphInverted : Prop :=
  ∀ (f : Font) (c : Byte), fontOk f = true →
    (invertedGlyph f c).length = (f.gw + 7) / 8 * f.gh ∧
    ∀ j : Nat, (invertedGlyph f c)[j]? = ((f.table.getD c.toNat [])[j]?).map fun g => 255 - g

/-- R23, R126: what the text requests refuse (log 15). -/
def Obligations.TextContract : Prop :=
  ∀ (s : State) (left top : W16) (f : Font) (str : List Byte),
    (s.cfg.hasText = false → exec (.printH left top f str) s = .refused .textUnitAbsent ∧
      exec (.printV left top f str) s = .refused .textUnitAbsent) ∧
    (s.cfg.hasText = true → (f.table.length ≠ 256 ∨ ∃ g ∈ f.table, g.length ≠ (f.gw + 7) / 8 * f.gh) →
      exec (.printH left top f str) s = .refused .glyphTable ∧ exec (.printV left top f str) s = .refused .glyphTable)

/-! ### Statuses -/

/-- R76, R330: a misaligned request in `Idle` answers `AlignmentError` with no event, whatever the transport would say. That
the other response fields are the free value drawn next is log 13 (R22). -/
def Obligations.MisalignedAnswers : Prop :=
  ∀ s : State, s.lstate = .idle →
    (∀ l w : W16, l.toNat % 8 ≠ 0 ∨ w.toNat % 8 ≠ 0 →
      exec (.setHRange l w) s = .next (s.answeredFail .alignmentError)) ∧
    (∀ x y : W16, x.toNat % 8 ≠ 0 → exec (.setStartAddress x y) s = .next (s.answeredFail .alignmentError)) ∧
    (∀ l t w h p q, writeRegionOk w h p q = true → l.toNat % 8 ≠ 0 ∨ w.toNat % 8 ≠ 0 →
      exec (.writeRegion l t w h p q) s = .next (s.answeredFail .alignmentError)) ∧
    (∀ l t w h a b, l.toNat % 8 ≠ 0 ∨ w.toNat % 8 ≠ 0 →
      exec (.readRegion l t w h a b) s = .next (s.answeredFail .alignmentError))

/-- R299, R306: a misaligned text request answers `AlignmentError` at its first printable character, with no event. -/
def Obligations.MisalignedText : Prop :=
  ∀ (s : State) (left top : W16) (f : Font) (str : List Byte),
    s.cfg.hasText = true → fontOk f = true → s.lstate = .idle → left.toNat % 8 ≠ 0 ∨ f.gw % 8 ≠ 0 →
    (drawnCells 1 str (0, 0) ≠ [] →
      ∃ t, exec (.printH left top f str) s = .next t ∧ t.rsp.status = .alignmentError ∧ t.trace = s.trace ∧
        t.line = s.line ∧ t.sh = s.sh ∧ t.lstate = s.lstate ∧ t.env = s.env ∧ t.peer = s.peer) ∧
    (drawnCells (-1) str (0, 0) ≠ [] →
      ∃ t, exec (.printV left top f str) s = .next t ∧ t.rsp.status = .alignmentError ∧ t.trace = s.trace ∧
        t.line = s.line ∧ t.sh = s.sh ∧ t.lstate = s.lstate ∧ t.env = s.env ∧ t.peer = s.peer)

/-- R325: which instruction can end with which status, on a well-formed configuration. -/
def Obligations.StatusTable : Prop :=
  ∀ (i : Instr) (s t : State), s.cfg.wf = true → exec i s = .next t → t.seq = none →
    (t.rsp.status = .sequenceError → isGated i = true ∧ s.lstate ≠ .idle) ∧
    (t.rsp.status = .alignmentError → canMisalign i = true) ∧
    (∀ code, t.rsp.status = .transportError code → i ≠ .reset ∧ i ≠ .busyWait)

/-- R322, R331, R333: `TransportError(code)` is the code of the last transfer made, the first that failed; `Ok` means that
no transfer failed; for a request that ends in the step that starts it and for one that ends after it waited (log 4). -/
def Obligations.FirstFailureReported : Prop :=
  ∀ s t : State, (∃ i, exec i s = .next t) ∨ (∃ q, s.seq = some q ∧ resumeWait q s = .next t) →
    t.seq = none →
    (t.rsp.status = .ok → ∀ k, s.env.xferPos ≤ k → k < t.env.xferPos → s.env.transfer k = .ok) ∧
    (∀ code, t.rsp.status = .transportError code →
      ∃ k, s.env.xferPos ≤ k ∧ t.env.xferPos = k + 1 ∧ s.env.transfer k = .fail code ∧
        ∀ j, s.env.xferPos ≤ j → j < k → s.env.transfer j = .ok)

/-! ### Whole-machine rules -/

/-- The engine's invariant is kept by every step: the lines are idle whenever a step ends (R34, R145, R261), `LSTATE` and
`SEQ` fit (R31, R33), every frame on the bus is whole (R142 to R145), the display RAM keeps its canonical form. -/
def Obligations.EngineInvariantKept : Prop :=
  ∀ s t : State, EngineInv s → step s = .next t → EngineInv t

/-- R9, R29: no step writes the configuration. -/
def Obligations.ConfigurationConstant : Prop := ∀ s t : State, step s = .next t → t.cfg = s.cfg

/-- R11, R148, R268, R147, R261: the trace only grows; every transfer carries `CFG.TIMEOUT`; the busy line is polled by
three instructions only, the reset line driven by two only, and the activity line only where it exists. That one trace is
kept over the whole run is the model's choice (log 20). -/
def Obligations.TraceRules : Prop :=
  ∀ (i : Instr) (s t : State), exec i s = .next t →
    s.trace <+: t.trace ∧
    (∀ e ∈ addedEvents s t, ∀ limit, e.timeLimit = some limit → limit = s.cfg.timeout) ∧
    (hasBusyWait i = false → ∀ e ∈ addedEvents s t, e.isPoll = false) ∧
    (i ≠ .reset → i ≠ .init → ∀ e ∈ addedEvents s t, e.isReset = false) ∧
    (s.cfg.hasAct = false → ∀ e ∈ addedEvents s t, e.isAct = false)

/-- R44: after `SEND`, `RECEIVE`, `RESET` and `INIT` no shadow is valid, however they end; a range or counter frame that
fails clears the valid bit of its own group only (R224, R225, R42); R41: every instruction that does not send a range or
counter frame, or a bulk frame, leaves the shadows as they were. -/
def Obligations.ShadowRules : Prop :=
  ∀ (i : Instr) (s t : State), exec i s = .next t →
    ((∃ c d, i = .send c d) ∨ (∃ c k, i = .receive c k) ∨ i = .reset ∨ i = .init → t.sh = s.sh.invalidate) ∧
    (∀ code, t.rsp.status = .transportError code →
      ((∃ l w, i = .setHRange l w) ∨ (∃ a b, i = .opRamXRange a b) → t.sh = { s.sh with hv := false }) ∧
      ((∃ l w, i = .setVRange l w) ∨ (∃ a b, i = .opRamYRange a b) → t.sh = { s.sh with vv := false }) ∧
      (∀ x, i = .opRamXCounter x → t.sh = { s.sh with cxv := false }) ∧
      (∀ y, i = .opRamYCounter y → t.sh = { s.sh with cyv := false })) ∧
    (tracksWindow i = false → t.sh = s.sh)

/-- The display RAM of the reference peer is left alone by every instruction that neither writes nor reads it, when it is
not sent a frame while busy (R98, R99, U4). -/
def Obligations.RamUnchanged : Prop :=
  ∀ (i : Instr) (s t : State), mayStore i = false → (s.env.refPeer = true → s.peer.busy = false) →
    exec i s = .next t → ∀ a, ramRead t.peer.ram a = ramRead s.peer.ram a

/-! ### The reference peer -/

/-- R94: what the register frames set, each leaving everything else of the peer alone. The frames are wire opcodes executed
by themselves (log 6), on an attached peer (log 9) that is not busy (a frame to a busy one is log 11). -/
def Obligations.PeerRegisterFrames : Prop :=
  ∀ (s : State), s.env.refPeer = true → s.peer.busy = false → transfersOk 2 s →
    (∀ a b t, exec (.opRamXRange a b) s = .next t → t.peer = { s.peer with regs := { s.peer.regs with xs := a, xe := b } }) ∧
    (∀ a b t, exec (.opRamYRange a b) s = .next t → t.peer = { s.peer with regs := { s.peer.regs with ys := a, ye := b } }) ∧
    (∀ x t, exec (.opRamXCounter x) s = .next t → t.peer = { s.peer with regs := { s.peer.regs with cx := x } }) ∧
    (∀ y t, exec (.opRamYCounter y) s = .next t → t.peer = { s.peer with regs := { s.peer.regs with cy := y } }) ∧
    (∀ m t, exec (.opDataEntryMode m) s = .next t →
      t.peer = { s.peer with regs := { s.peer.regs with dem := m.setWidth 3 } }) ∧
    (∀ k t, exec (.opRamReadBank k) s = .next t →
      t.peer = { s.peer with regs := { s.peer.regs with bank := if k.getLsbD 0 then .red else .black } })

/-- R96: in the modes 3 and 7, in which both directions increment, the counter never leaves the window. The step-and-wrap
detail is log 23. -/
def Obligations.AdvanceStaysInWindow : Prop :=
  ∀ r : PeerRegs, r.dem.getLsbD 0 = true → r.dem.getLsbD 1 = true → inWindow r = true → inWindow (advance r) = true

/-- R96, R64: in the mode `INIT` programs, after `i` bytes of a window of `w8` columns the counter stands `i mod w8` columns
and `i div w8` rows from the window's start. -/
def Obligations.AdvanceRowMajor : Prop :=
  ∀ (r : PeerRegs) (i : Nat), r.dem = 3 → r.cx = r.xs → r.cy = r.ys → r.xs ≤ r.xe → r.ys ≤ r.ye →
    i < (r.xe.toNat - r.xs.toNat + 1) * (r.ye.toNat - r.ys.toNat + 1) →
    (advance^[i] r).cx.toNat = r.xs.toNat + i % (r.xe.toNat - r.xs.toNat + 1) ∧
    (advance^[i] r).cy.toNat = r.ys.toNat + i / (r.xe.toNat - r.xs.toNat + 1)

/-- R98, R81: the software reset, the master activation and the pattern fills make the peer busy; the first two leave its
RAM, the activation its registers too, and a pattern fill everything but its plane, whose bytes it makes unknown (log 12); a
`BUSY_WAIT` on a peer that is not busy is one poll that changes nothing of it (log 27). -/
def Obligations.PeerBusy : Prop :=
  ∀ (s t : State), s.env.refPeer = true → s.peer.busy = false →
    (transfersOk 1 s → exec .opSwReset s = .next t → t.peer.busy = true ∧ t.peer.ram = s.peer.ram) ∧
    (transfersOk 1 s → exec .opMasterActivation s = .next t →
      t.peer = { s.peer with busy := true }) ∧
    (∀ b, transfersOk 2 s → exec (.opPatternPrimary b) s = .next t →
      t.peer = { s.peer with busy := true, ram := ramForget .black s.peer.ram }) ∧
    (∀ b, transfersOk 2 s → exec (.opPatternSecondary b) s = .next t →
      t.peer = { s.peer with busy := true, ram := ramForget .red s.peer.ram }) ∧
    (exec .busyWait s = .next t → t.seq = none ∧ t.peer = s.peer)

/-! ### Encodings of the window -/

/-- R113: the horizontal fields of every window and of every X coordinate, in arithmetic modulo 256, with the corner cases
of width 0; a degenerate window is sent without complaint. -/
def Obligations.HorizontalFields : Prop :=
  (∀ left width x : W16,
    (xsField left.toNat).toNat = left.toNat / 8 % 256 ∧
    ((xeField left.toNat width.toNat).toNat : Int) = ((left.toNat + width.toNat) / 8 - 1 : Int) % 256 ∧
    (cxField x.toNat).toNat = x.toNat / 8 % 256 ∧
    xeField left.toNat 0 = xsField left.toNat - 1 ∧ xeField 0 0 = 0xFF) ∧
  (∀ (s : State) (left width : W16), s.lstate = .idle → left.toNat % 8 = 0 → width.toNat % 8 = 0 → transfersOk 2 s →
    ∃ t, exec (.setHRange left width) s = .next t ∧ t.rsp.status = .ok ∧
      t.trace = s.trace ++ stamp .idle
        (writeEvents s.cfg 0x44 [xsField left.toNat, xeField left.toNat width.toNat]))
end

