-- ==== Sys2Proof/Laws/Decode.lean ====
section
/-! SUPPORT. The helper lemmas of decoding and encoding: byte order, field codes, and how the wire decoder dispatches. -/

namespace Sys2Proof.Machine

@[simp] theorem ofLoHi_toNat (lo hi : Byte) : (ofLoHi lo hi).toNat = lo.toNat + 256 * hi.toNat := by
  have h : (ofLoHi lo hi).toNat = hi.toNat <<< 8 ||| lo.toNat := BitVec.toNat_append ..
  rw [h, Nat.shiftLeft_eq, Nat.mul_comm, ← Nat.two_pow_add_eq_or_of_lt lo.isLt]
  omega

@[simp] theorem lo8_toNat (v : W16) : (lo8 v).toNat = v.toNat % 256 := by simp [lo8]

@[simp] theorem hi8_toNat (v : W16) : (hi8 v).toNat = v.toNat / 256 := by
  have := v.isLt
  simp [hi8, Nat.shiftRight_eq_div_pow]
  omega

@[simp] theorem ofLoHi_lo8_hi8 (v : W16) : ofLoHi (lo8 v) (hi8 v) = v := by
  apply BitVec.eq_of_toNat_eq
  rw [ofLoHi_toNat, lo8_toNat, hi8_toNat]; omega

@[simp] theorem lo8_ofLoHi (lo hi : Byte) : lo8 (ofLoHi lo hi) = lo := by
  have := lo.isLt
  apply BitVec.eq_of_toNat_eq
  rw [lo8_toNat, ofLoHi_toNat]; omega

@[simp] theorem hi8_ofLoHi (lo hi : Byte) : hi8 (ofLoHi lo hi) = hi := by
  have := lo.isLt
  apply BitVec.eq_of_toNat_eq
  rw [hi8_toNat, ofLoHi_toNat]; omega

@[simp] theorem colorOfCode_colorCode (c : Color) : colorOfCode (colorCode c) = c := by cases c <;> rfl

@[simp] theorem colorCode_colorOfCode (c : BitVec 2) : colorCode (colorOfCode c) = c := by revert c; decide

@[simp] theorem bankOfBit_bankCode (b : Bank) : bankOfBit ((bankCode b).getLsbD 0) = b := by cases b <;> rfl

/-- A field of a 16-bit operand register read back from the register it was written to. -/
theorem setWidth_setWidth_of_le {k : Nat} (h : k ≤ 16) (v : BitVec k) : (v.setWidth 16).setWidth k = v := by
  rw [BitVec.setWidth_setWidth_of_le v h, BitVec.setWidth_eq]

end Sys2Proof.Machine

namespace Sys2Proof

/-- A frame of an assigned opcode is decoded by the format of its data phase. -/
theorem decodeWire_send {c : Byte} (h : c ∈ assignedOpcodes) (d : List Byte) :
    decodeWire { cmd := c, body := .send d } = decodeWrite c d := if_pos h

theorem decodeWire_recv {c : Byte} (h : c ∈ assignedOpcodes) (k : Nat) :
    decodeWire { cmd := c, body := .recv k } = decodeRead c k := if_pos h

/-- A frame that decodes has an assigned opcode. -/
theorem decodeWire_assigned {f : WireFrame} {i : Instr} (h : decodeWire f = .ok i) : f.cmd ∈ assignedOpcodes := by
  unfold decodeWire at h
  split at h
  · assumption
  · simp at h

end Sys2Proof
end

