-- ==== Sys2Proof/Laws/State.lean ====
section
/-! SUPPORT. The field lemmas of the state updates: what each of the small operations writes, and that it leaves the other
fields as they were. -/

namespace Sys2Proof.Machine

variable (s : State)

/-! ### `Seq.after` and `start` -/
@[simp] theorem Seq.after_tag (n : Nat) (q : Seq) : (q.after n).tag = q.tag := rfl
@[simp] theorem Seq.after_index (n : Nat) (q : Seq) : (q.after n).index = q.index + n := rfl
@[simp] theorem Seq.after_zero : Seq.after 0 = id := rfl
theorem Seq.after_after (m n : Nat) (q : Seq) : (q.after m).after n = q.after (m + n) := by
  simp [Seq.after, Nat.add_assoc]
@[simp] theorem Seq.after_comp (m n : Nat) : Seq.after m ∘ Seq.after n = Seq.after (n + m) :=
  funext fun q => Seq.after_after n m q
/-- Events one after another move `SEQ` by their sum (R25). -/
theorem Seq.map_after (m n : Nat) (o : Option Seq) :
    (o.map (Seq.after m)).map (Seq.after n) = o.map (Seq.after (m + n)) := by
  cases o <;> simp [Seq.after_after]
@[simp] theorem start_cfg (g : Byte) : (start g s).cfg = s.cfg := rfl
@[simp] theorem start_lstate (g : Byte) : (start g s).lstate = s.lstate := rfl
@[simp] theorem start_seq (g : Byte) : (start g s).seq = some { tag := g, index := 0 } := rfl
@[simp] theorem start_line (g : Byte) : (start g s).line = s.line := rfl
@[simp] theorem start_sh (g : Byte) : (start g s).sh = s.sh := rfl
@[simp] theorem start_req (g : Byte) : (start g s).req = s.req := rfl
@[simp] theorem start_rsp (g : Byte) : (start g s).rsp = s.rsp := rfl
@[simp] theorem start_port (g : Byte) : (start g s).port = s.port := rfl
@[simp] theorem start_env (g : Byte) : (start g s).env = s.env := rfl
@[simp] theorem start_peer (g : Byte) : (start g s).peer = s.peer := rfl
@[simp] theorem start_trace (g : Byte) : (start g s).trace = s.trace := rfl
@[simp] theorem start_free (g : Byte) : (start g s).free = s.free := rfl

/-! ### `emit` -/
@[simp] theorem emit_cfg (e : Event) : (emit e s).cfg = s.cfg := rfl
@[simp] theorem emit_lstate (e : Event) : (emit e s).lstate = s.lstate := rfl
@[simp] theorem emit_seq (e : Event) : (emit e s).seq = s.seq.map (Seq.after 1) := rfl
@[simp] theorem emit_line (e : Event) : (emit e s).line = s.line := rfl
@[simp] theorem emit_sh (e : Event) : (emit e s).sh = s.sh := rfl
@[simp] theorem emit_req (e : Event) : (emit e s).req = s.req := rfl
@[simp] theorem emit_rsp (e : Event) : (emit e s).rsp = s.rsp := rfl
@[simp] theorem emit_port (e : Event) : (emit e s).port = s.port := rfl
@[simp] theorem emit_env (e : Event) : (emit e s).env = s.env := rfl
@[simp] theorem emit_peer (e : Event) : (emit e s).peer = s.peer := rfl
@[simp] theorem emit_trace (e : Event) : (emit e s).trace = s.trace ++ [(s.lstate, e)] := rfl
@[simp] theorem emit_free (e : Event) : (emit e s).free = s.free := rfl

/-! ### `setLState` -/
@[simp] theorem setLState_cfg (l : LState) : (setLState l s).cfg = s.cfg := rfl
@[simp] theorem setLState_lstate (l : LState) : (setLState l s).lstate = l := rfl
@[simp] theorem setLState_seq (l : LState) : (setLState l s).seq = s.seq := rfl
@[simp] theorem setLState_line (l : LState) : (setLState l s).line = s.line := rfl
@[simp] theorem setLState_sh (l : LState) : (setLState l s).sh = s.sh := rfl
@[simp] theorem setLState_req (l : LState) : (setLState l s).req = s.req := rfl
@[simp] theorem setLState_rsp (l : LState) : (setLState l s).rsp = s.rsp := rfl
@[simp] theorem setLState_port (l : LState) : (setLState l s).port = s.port := rfl
@[simp] theorem setLState_env (l : LState) : (setLState l s).env = s.env := rfl
@[simp] theorem setLState_peer (l : LState) : (setLState l s).peer = s.peer := rfl
@[simp] theorem setLState_trace (l : LState) : (setLState l s).trace = s.trace := rfl
@[simp] theorem setLState_free (l : LState) : (setLState l s).free = s.free := rfl

/-! ### `modifyShadow` -/
@[simp] theorem modifyShadow_cfg (f : Shadow → Shadow) : (modifyShadow f s).cfg = s.cfg := rfl
@[simp] theorem modifyShadow_lstate (f : Shadow → Shadow) : (modifyShadow f s).lstate = s.lstate := rfl
@[simp] theorem modifyShadow_seq (f : Shadow → Shadow) : (modifyShadow f s).seq = s.seq := rfl
@[simp] theorem modifyShadow_line (f : Shadow → Shadow) : (modifyShadow f s).line = s.line := rfl
@[simp] theorem modifyShadow_sh (f : Shadow → Shadow) : (modifyShadow f s).sh = f s.sh := rfl
@[simp] theorem modifyShadow_req (f : Shadow → Shadow) : (modifyShadow f s).req = s.req := rfl
@[simp] theorem modifyShadow_rsp (f : Shadow → Shadow) : (modifyShadow f s).rsp = s.rsp := rfl
@[simp] theorem modifyShadow_port (f : Shadow → Shadow) : (modifyShadow f s).port = s.port := rfl
@[simp] theorem modifyShadow_env (f : Shadow → Shadow) : (modifyShadow f s).env = s.env := rfl
@[simp] theorem modifyShadow_peer (f : Shadow → Shadow) : (modifyShadow f s).peer = s.peer := rfl
@[simp] theorem modifyShadow_trace (f : Shadow → Shadow) : (modifyShadow f s).trace = s.trace := rfl
@[simp] theorem modifyShadow_free (f : Shadow → Shadow) : (modifyShadow f s).free = s.free := rfl

/-! ### `modifyBody` -/
@[simp] theorem modifyBody_cfg (f : ResponseBody → ResponseBody) : (modifyBody f s).cfg = s.cfg := rfl
@[simp] theorem modifyBody_lstate (f : ResponseBody → ResponseBody) : (modifyBody f s).lstate = s.lstate := rfl
@[simp] theorem modifyBody_seq (f : ResponseBody → ResponseBody) : (modifyBody f s).seq = s.seq := rfl
@[simp] theorem modifyBody_line (f : ResponseBody → ResponseBody) : (modifyBody f s).line = s.line := rfl
@[simp] theorem modifyBody_sh (f : ResponseBody → ResponseBody) : (modifyBody f s).sh = s.sh := rfl
@[simp] theorem modifyBody_req (f : ResponseBody → ResponseBody) : (modifyBody f s).req = s.req := rfl
@[simp] theorem modifyBody_body (f : ResponseBody → ResponseBody) : (modifyBody f s).rsp.body = f s.rsp.body := rfl
@[simp] theorem modifyBody_status (f : ResponseBody → ResponseBody) : (modifyBody f s).rsp.status = s.rsp.status := rfl
@[simp] theorem modifyBody_port (f : ResponseBody → ResponseBody) : (modifyBody f s).port = s.port := rfl
@[simp] theorem modifyBody_env (f : ResponseBody → ResponseBody) : (modifyBody f s).env = s.env := rfl
@[simp] theorem modifyBody_peer (f : ResponseBody → ResponseBody) : (modifyBody f s).peer = s.peer := rfl
@[simp] theorem modifyBody_trace (f : ResponseBody → ResponseBody) : (modifyBody f s).trace = s.trace := rfl
@[simp] theorem modifyBody_free (f : ResponseBody → ResponseBody) : (modifyBody f s).free = s.free := rfl

/-! ### `modifyPeer` -/
theorem modifyPeer_eq (f : Peer → Peer) :
    modifyPeer f s = { s with peer := if s.env.refPeer then f s.peer else s.peer } := by
  unfold modifyPeer; split <;> rfl
@[simp] theorem modifyPeer_cfg (f : Peer → Peer) : (modifyPeer f s).cfg = s.cfg := by rw [modifyPeer_eq]
@[simp] theorem modifyPeer_lstate (f : Peer → Peer) : (modifyPeer f s).lstate = s.lstate := by rw [modifyPeer_eq]
@[simp] theorem modifyPeer_seq (f : Peer → Peer) : (modifyPeer f s).seq = s.seq := by rw [modifyPeer_eq]
@[simp] theorem modifyPeer_line (f : Peer → Peer) : (modifyPeer f s).line = s.line := by rw [modifyPeer_eq]
@[simp] theorem modifyPeer_sh (f : Peer → Peer) : (modifyPeer f s).sh = s.sh := by rw [modifyPeer_eq]
@[simp] theorem modifyPeer_req (f : Peer → Peer) : (modifyPeer f s).req = s.req := by rw [modifyPeer_eq]
@[simp] theorem modifyPeer_rsp (f : Peer → Peer) : (modifyPeer f s).rsp = s.rsp := by rw [modifyPeer_eq]
@[simp] theorem modifyPeer_port (f : Peer → Peer) : (modifyPeer f s).port = s.port := by rw [modifyPeer_eq]
@[simp] theorem modifyPeer_env (f : Peer → Peer) : (modifyPeer f s).env = s.env := by rw [modifyPeer_eq]
@[simp] theorem modifyPeer_peer (f : Peer → Peer) :
    (modifyPeer f s).peer = if s.env.refPeer then f s.peer else s.peer := by rw [modifyPeer_eq]
@[simp] theorem modifyPeer_trace (f : Peer → Peer) : (modifyPeer f s).trace = s.trace := by rw [modifyPeer_eq]
@[simp] theorem modifyPeer_free (f : Peer → Peer) : (modifyPeer f s).free = s.free := by rw [modifyPeer_eq]

/-! ### `answer` -/
theorem answer_ok : answer .ok s = s.answeredOk := rfl
theorem answer_fail {st : Status} (h : st ≠ .ok) : answer st s = s.answeredFail st := by
  simp [answer, h, State.answeredFail]
@[simp] theorem answer_cfg (st : Status) : (answer st s).cfg = s.cfg := by unfold answer; split <;> rfl
@[simp] theorem answer_lstate (st : Status) : (answer st s).lstate = s.lstate := by unfold answer; split <;> rfl
@[simp] theorem answer_seq (st : Status) : (answer st s).seq = none := by unfold answer; split <;> rfl
@[simp] theorem answer_line (st : Status) : (answer st s).line = s.line := by unfold answer; split <;> rfl
@[simp] theorem answer_sh (st : Status) : (answer st s).sh = s.sh := by unfold answer; split <;> rfl
@[simp] theorem answer_req (st : Status) : (answer st s).req = s.req := by unfold answer; split <;> rfl
@[simp] theorem answer_status (st : Status) : (answer st s).rsp.status = st := by
  unfold answer; split <;> simp_all
@[simp] theorem answer_port (st : Status) : (answer st s).port = s.port := by unfold answer; split <;> rfl
@[simp] theorem answer_env (st : Status) : (answer st s).env = s.env := by unfold answer; split <;> rfl
@[simp] theorem answer_peer (st : Status) : (answer st s).peer = s.peer := by unfold answer; split <;> rfl
@[simp] theorem answer_trace (st : Status) : (answer st s).trace = s.trace := by unfold answer; split <;> rfl

end Sys2Proof.Machine
end

