-- ==== Sys2Proof/Laws/Frames.lean ====
section
/-! SUPPORT. What the frame primitives do, said once: a write frame ends in one of three ways, a read frame too (R142 to
R146), each with the whole state it leaves. -/

namespace Sys2Proof.Machine

/-- The state after a frame whose opcode transfer failed, with what the peer makes of it. -/
def State.opcodeFailed (op : Byte) (touch : Peer → Peer) (code : Nat) (s : State) : State :=
  { s with
    trace := s.trace ++ stamp s.lstate (opcodeFailEvents s.cfg op code)
    seq := s.seq.map (Seq.after (opcodeFailEvents s.cfg op code).length)
    line := restored s
    env := { s.env with xferPos := s.env.xferPos + 1 }
    peer := if s.env.refPeer then touch s.peer else s.peer }

/-- The state after a write frame whose payload transfer failed. -/
def State.payloadFailed (op : Byte) (d : List Byte) (code : Nat) (s : State) : State :=
  { s with
    trace := s.trace ++ stamp s.lstate (payloadFailEvents s.cfg op d code)
    seq := s.seq.map (Seq.after (payloadFailEvents s.cfg op d code).length)
    line := restored s
    env := { s.env with xferPos := s.env.xferPos + 2 }
    peer := if s.env.refPeer then s.peer.touch op d else s.peer }

/-- The state after a read frame whose `Rx` failed. -/
def State.readFailed (op : Byte) (k code : Nat) (s : State) : State :=
  { s with
    trace := s.trace ++ stamp s.lstate (readFailEvents s.cfg op k code)
    seq := s.seq.map (Seq.after (readFailEvents s.cfg op k code).length)
    line := restored s
    env := { s.env with xferPos := s.env.xferPos + 2 }
    peer := if s.env.refPeer then s.peer.touchRead op k else s.peer }

/-- A write frame of which every transfer is `Ok`. -/
theorem frameW_ok {op : Byte} {d : List Byte} {s : State} (h : transfersOk (transfersOf d) s) :
    frameW op d s = (.ok, s.wrote op d) := by
  have h0 : s.env.transfer s.env.xferPos = .ok := h 0 (by unfold transfersOf; split <;> decide)
  have h1 : d ≠ [] → s.env.transfer (s.env.xferPos + 1) = .ok := fun hd => h 1 (by simp [transfersOf, hd])
  by_cases hd : d = [] <;> cases ha : s.cfg.hasAct <;>
    simp_all [frameW, openFrame, closeFrame, tx, setDc, setCs, setAct, peerTakes, modifyPeer_eq, emit, Env.transfer,
      State.wrote, writeEvents, actEvents, stamp, restored, transfersOf, statusOf]

/-- A frame whose opcode transfer fails: the payload is never handed over. -/
theorem frameW_opcodeFail {op : Byte} {d : List Byte} {s : State} {code : Nat}
    (h : s.env.transfer s.env.xferPos = .fail code) :
    frameW op d s = (.transportError code, s.opcodeFailed op (Peer.touch op d) code) := by
  cases ha : s.cfg.hasAct <;>
    simp_all [frameW, openFrame, closeFrame, tx, setDc, setCs, setAct, peerTakes, modifyPeer_eq, emit, Env.transfer,
      State.opcodeFailed, opcodeFailEvents, actEvents, stamp, restored, statusOf]

/-- A write frame whose payload transfer fails. -/
theorem frameW_payloadFail {op : Byte} {d : List Byte} {s : State} {code : Nat} (hd : d ≠ [])
    (h0 : s.env.transfer s.env.xferPos = .ok) (h : s.env.transfer (s.env.xferPos + 1) = .fail code) :
    frameW op d s = (.transportError code, s.payloadFailed op d code) := by
  cases ha : s.cfg.hasAct <;>
    simp_all [frameW, openFrame, closeFrame, tx, setDc, setCs, setAct, peerTakes, modifyPeer_eq, emit, Env.transfer,
      State.payloadFailed, payloadFailEvents, actEvents, stamp, restored, statusOf]

/-- Everything a write frame can do. -/
theorem frameW_cases (op : Byte) (d : List Byte) (s : State) :
    (transfersOk (transfersOf d) s ∧ frameW op d s = (.ok, s.wrote op d)) ∨
    (∃ code, s.env.transfer s.env.xferPos = .fail code ∧
      frameW op d s = (.transportError code, s.opcodeFailed op (Peer.touch op d) code)) ∨
    (∃ code, d ≠ [] ∧ s.env.transfer s.env.xferPos = .ok ∧ s.env.transfer (s.env.xferPos + 1) = .fail code ∧
      frameW op d s = (.transportError code, s.payloadFailed op d code)) := by
  cases h0 : s.env.transfer s.env.xferPos with
  | fail code => exact .inr (.inl ⟨code, rfl, frameW_opcodeFail h0⟩)
  | ok =>
    by_cases hd : d = []
    · have h : transfersOk (transfersOf d) s := by
        intro k hk
        have : k = 0 := by simp [transfersOf, hd] at hk; exact hk
        simpa [this] using h0
      exact .inl ⟨h, frameW_ok h⟩
    · cases h1 : s.env.transfer (s.env.xferPos + 1) with
      | fail code => exact .inr (.inr ⟨code, hd, rfl, rfl, frameW_payloadFail hd h0 h1⟩)
      | ok =>
        have h : transfersOk (transfersOf d) s := by
          intro k hk
          have hk : k < 2 := by simpa [transfersOf, hd] using hk
          interval_cases k
          · simpa using h0
          · exact h1
        exact .inl ⟨h, frameW_ok h⟩

/-- A read frame of which both transfers are `Ok`. -/
theorem frameR_ok {op : Byte} {k : Nat} {s : State} (hk : 0 < k) (h : transfersOk 2 s) :
    frameR op k s = ((.ok, (offered op k s).1), s.didRead op k) := by
  have h0 : s.env.transfer s.env.xferPos = .ok := h 0 (by decide)
  have h1 : s.env.transfer (s.env.xferPos + 1) = .ok := h 1 (by decide)
  have hk : k ≠ 0 := Nat.pos_iff_ne_zero.1 hk
  cases ha : s.cfg.hasAct <;>
    simp_all [frameR, openFrame, closeFrame, tx, rx, setDc, setCs, setAct, emit, Env.transfer, offered, Env.nextBytes,
      Env.byteAt, State.didRead, readEvents, actEvents, stamp, restored, statusOf]

/-- A read of no bytes is, on the wire, a write frame without payload. -/
theorem frameR_zero (op : Byte) (s : State) :
    frameR op 0 s = (((frameW op [] s).1, []), (frameW op [] s).2) := by
  simp [frameR, frameW]

/-- A read frame whose opcode transfer fails. -/
theorem frameR_opcodeFail {op : Byte} {k : Nat} {s : State} {code : Nat} (hk : 0 < k)
    (h : s.env.transfer s.env.xferPos = .fail code) :
    frameR op k s = ((.transportError code, []), s.opcodeFailed op (Peer.touchRead op k) code) := by
  have hk : k ≠ 0 := Nat.pos_iff_ne_zero.1 hk
  cases ha : s.cfg.hasAct <;>
    simp_all [frameR, openFrame, closeFrame, tx, setDc, setCs, setAct, modifyPeer_eq, emit, Env.transfer,
      State.opcodeFailed, opcodeFailEvents, actEvents, stamp, restored, statusOf]

/-- A read frame whose `Rx` fails. -/
theorem frameR_rxFail {op : Byte} {k : Nat} {s : State} {code : Nat} (hk : 0 < k)
    (h0 : s.env.transfer s.env.xferPos = .ok) (h : s.env.transfer (s.env.xferPos + 1) = .fail code) :
    frameR op k s = ((.transportError code, []), s.readFailed op k code) := by
  have hk : k ≠ 0 := Nat.pos_iff_ne_zero.1 hk
  cases ha : s.cfg.hasAct <;>
    simp_all [frameR, openFrame, closeFrame, tx, rx, setDc, setCs, setAct, modifyPeer_eq, emit, Env.transfer,
      State.readFailed, readFailEvents, actEvents, stamp, restored, statusOf]

/-- Everything a read frame of at least one byte can do. -/
theorem frameR_cases (op : Byte) {k : Nat} (s : State) (hk : 0 < k) :
    (transfersOk 2 s ∧ frameR op k s = ((.ok, (offered op k s).1), s.didRead op k)) ∨
    (∃ code, s.env.transfer s.env.xferPos = .fail code ∧
      frameR op k s = ((.transportError code, []), s.opcodeFailed op (Peer.touchRead op k) code)) ∨
    (∃ code, s.env.transfer s.env.xferPos = .ok ∧ s.env.transfer (s.env.xferPos + 1) = .fail code ∧
      frameR op k s = ((.transportError code, []), s.readFailed op k code)) := by
  cases h0 : s.env.transfer s.env.xferPos with
  | fail code => exact .inr (.inl ⟨code, rfl, frameR_opcodeFail hk h0⟩)
  | ok =>
    cases h1 : s.env.transfer (s.env.xferPos + 1) with
    | fail code => exact .inr (.inr ⟨code, rfl, rfl, frameR_rxFail hk h0 h1⟩)
    | ok =>
      have h : transfersOk 2 s := by
        intro j hj
        interval_cases j
        · simpa using h0
        · exact h1
      exact .inl ⟨h, frameR_ok hk h⟩

end Sys2Proof.Machine
end

