-- ==== Sys2Proof/Laws/Memory.lean ====
section
/-! SUPPORT. The display RAM: every operation keeps the canonical form, a read after a write gives the value written and
leaves every other address alone, and the address of a cell is its own. -/

namespace Sys2Proof.Machine

/-- A byte read back from where it was written. -/
theorem ramRead_ramWrite_same (m : List Host.Cell) (a : Nat) (b : Byte) : ramRead (ramWrite m a b) a = some b := by
  induction m with
  | nil => simp [ramWrite, ramRead]
  | cons c m ih =>
    obtain ⟨k, v⟩ := c
    simp only [ramWrite]
    split
    · simp [ramRead]
    · split
      · simp [ramRead]
      · rename_i h; simp [ramRead, Ne.symm h, ih]

/-- A write leaves every other address alone. -/
theorem ramRead_ramWrite_other (m : List Host.Cell) {a c : Nat} (b : Byte) (h : c ≠ a) :
    ramRead (ramWrite m a b) c = ramRead m c := by
  induction m with
  | nil => simp [ramWrite, ramRead, Ne.symm h]
  | cons x m ih =>
    obtain ⟨k, v⟩ := x
    simp only [ramWrite]
    split
    · simp [ramRead, Ne.symm h]
    · split
      · rename_i _ hk; subst hk; simp [ramRead, Ne.symm h]
      · simp only [ramRead, ih]

/-- Every cell after a write is the written one or an old one. -/
theorem mem_ramWrite {m : List Host.Cell} {a : Nat} {b : Byte} {c : Host.Cell} (h : c ∈ ramWrite m a b) :
    c = (a, b) ∨ c ∈ m := by
  induction m with
  | nil => simpa [ramWrite] using h
  | cons x m ih =>
    obtain ⟨k, v⟩ := x
    simp only [ramWrite] at h
    split at h
    · simpa using h
    · split at h
      · rcases List.mem_cons.mp h with h | h
        · exact .inl h
        · exact .inr (List.mem_cons_of_mem _ h)
      · rcases List.mem_cons.mp h with h | h
        · exact .inr (h ▸ List.mem_cons_self)
        · exact (ih h).imp_right (List.mem_cons_of_mem _)

/-- A write keeps the canonical form. -/
theorem Memory.wf_ramWrite {m : List Host.Cell} {a : Nat} (b : Byte) (ha : a < ramSize) (h : Memory.wf m) :
    Memory.wf (ramWrite m a b) := by
  refine ⟨?_, fun c hc => (mem_ramWrite hc).elim (fun e => e ▸ ha) (h.2 c)⟩
  obtain ⟨hp, hs⟩ := h
  induction m with
  | nil => simp [ramWrite]
  | cons x m ih =>
    obtain ⟨k, v⟩ := x
    obtain ⟨hx, hm⟩ := List.pairwise_cons.mp hp
    simp only [ramWrite]
    split
    · rename_i hak
      refine List.pairwise_cons.mpr ⟨fun c hc => ?_, hp⟩
      rcases List.mem_cons.mp hc with hc | hc
      · simpa [hc] using hak
      · exact lt_trans hak (hx c hc)
    · split
      · rename_i _ hak; exact List.pairwise_cons.mpr ⟨by simpa [hak] using hx, hm⟩
      · rename_i h1 h2
        refine List.pairwise_cons.mpr ⟨fun c hc => ?_, ih hm fun c hc => hs c (List.mem_cons_of_mem _ hc)⟩
        rcases mem_ramWrite hc with hc | hc
        · rw [hc]; show k < a; omega
        · exact hx c hc

/-- Forgetting a plane keeps the canonical form. -/
theorem Memory.wf_ramForget (plane : Bank) {m : List Host.Cell} (h : Memory.wf m) : Memory.wf (ramForget plane m) :=
  ⟨h.1.sublist List.filter_sublist, fun c hc => h.2 c (List.mem_of_mem_filter hc)⟩

/-- Forgetting a byte keeps the canonical form. -/
theorem Memory.wf_ramErase (a : Nat) {m : List Host.Cell} (h : Memory.wf m) : Memory.wf (ramErase a m) :=
  ⟨h.1.sublist List.filter_sublist, fun c hc => h.2 c (List.mem_of_mem_filter hc)⟩

/-- A forgotten byte is not known. -/
theorem ramRead_ramErase_same (m : List Host.Cell) (a : Nat) : ramRead (ramErase a m) a = none := by
  induction m with
  | nil => rfl
  | cons x m ih =>
    obtain ⟨k, v⟩ := x
    by_cases hk : k = a
    · simpa [ramErase, hk] using ih
    · simpa [ramErase, ramRead, hk] using ih

/-- Forgetting a byte leaves every other address alone. -/
theorem ramRead_ramErase_other (m : List Host.Cell) {a c : Nat} (h : c ≠ a) :
    ramRead (ramErase a m) c = ramRead m c := by
  induction m with
  | nil => rfl
  | cons x m ih =>
    obtain ⟨k, v⟩ := x
    by_cases hk : k = a
    · subst hk; simpa [ramErase, ramRead, Ne.symm h] using ih
    · by_cases hc : k = c
      · subst hc; simp [ramErase, ramRead, hk]
      · simpa [ramErase, ramRead, hk, hc] using ih

/-- Forgetting a plane leaves the addresses of the other plane alone. -/
theorem ramRead_ramForget (plane : Bank) (m : List Host.Cell) {a : Nat} (h : inPlane plane a = false) :
    ramRead (ramForget plane m) a = ramRead m a := by
  induction m with
  | nil => rfl
  | cons x m ih =>
    obtain ⟨k, v⟩ := x
    by_cases hk : k = a
    · subst hk; simp [ramForget, ramRead, h]
    · by_cases hp : inPlane plane k = true
      · simpa [ramForget, ramRead, hk, hp] using ih
      · simpa [ramForget, ramRead, hk, hp] using ih

/-- No byte is known of the empty list. -/
@[simp] theorem ramRead_nil (a : Nat) : ramRead [] a = none := rfl

/-- The addresses of cells are inside the space. -/
theorem ramAddr_lt (plane : Bank) (x : Byte) (y : W16) : ramAddr plane x y < ramSize := by
  have hx := x.isLt
  have hy := y.isLt
  simp only [ramAddr, ramSize]
  split <;> omega

/-- The plane of a cell's address. -/
theorem inPlane_ramAddr (p q : Bank) (x : Byte) (y : W16) : inPlane p (ramAddr q x y) = decide (p = q) := by
  have hx := x.isLt
  have hy := y.isLt
  cases p <;> cases q <;> simp [inPlane, ramAddr] <;> omega

/-- Two cells of one address are the same cell (R61). -/
theorem ramAddr_inj {p p' : Bank} {x x' : Byte} {y y' : W16} (h : ramAddr p x y = ramAddr p' x' y') :
    p = p' ∧ x = x' ∧ y = y' := by
  have hx := x.isLt
  have hy := y.isLt
  have hx' := x'.isLt
  have hy' := y'.isLt
  have key : p = p' ∧ x.toNat = x'.toNat ∧ y.toNat = y'.toNat := by
    cases p <;> cases p' <;> simp [ramAddr] at h ⊢ <;> omega
  exact ⟨key.1, BitVec.eq_of_toNat_eq key.2.1, BitVec.eq_of_toNat_eq key.2.2⟩

end Sys2Proof.Machine
end

