-- ==== Sys2Proof/Laws/Peer.lean ====
section
/-! SUPPORT. The reference peer: the field lemmas of its updates, and that nothing it does breaks the canonical form of its
RAM. -/

namespace Sys2Proof.Machine

@[simp] theorem Peer.forgetRegs_ram (p : Peer) : p.forgetRegs.ram = p.ram := rfl
@[simp] theorem Peer.forgetRegs_busy (p : Peer) : p.forgetRegs.busy = p.busy := rfl
@[simp] theorem Peer.forgetAll_ram (p : Peer) : p.forgetAll.ram = [] := rfl
@[simp] theorem Peer.forgetCounter_ram (p : Peer) : p.forgetCounter.ram = p.ram := rfl
@[simp] theorem Peer.forgetCounter_busy (p : Peer) : p.forgetCounter.busy = p.busy := rfl
@[simp] theorem Peer.forgetPlane_ram (b : Bank) (p : Peer) : (p.forgetPlane b).ram = ramForget b p.ram := rfl
@[simp] theorem Peer.forgetPlane_regs (b : Bank) (p : Peer) : (p.forgetPlane b).regs = p.regs := rfl
@[simp] theorem Peer.forgetPlane_busy (b : Bank) (p : Peer) : (p.forgetPlane b).busy = p.busy := rfl
@[simp] theorem Peer.softReset_ram (p : Peer) : p.softReset.ram = p.ram := rfl
@[simp] theorem Peer.softReset_busy (p : Peer) : p.softReset.busy = true := rfl
@[simp] theorem Peer.hardReset_ram (p : Peer) : p.hardReset.ram = p.ram := rfl
@[simp] theorem Peer.hardReset_busy (p : Peer) : p.hardReset.busy = p.busy := rfl

@[simp] theorem advance_xs (r : PeerRegs) : (advance r).xs = r.xs := by
  unfold advance; split_ifs <;> rfl
@[simp] theorem advance_xe (r : PeerRegs) : (advance r).xe = r.xe := by
  unfold advance; split_ifs <;> rfl
@[simp] theorem advance_ys (r : PeerRegs) : (advance r).ys = r.ys := by
  unfold advance; split_ifs <;> rfl
@[simp] theorem advance_ye (r : PeerRegs) : (advance r).ye = r.ye := by
  unfold advance; split_ifs <;> rfl
@[simp] theorem advance_dem (r : PeerRegs) : (advance r).dem = r.dem := by
  unfold advance; split_ifs <;> rfl
@[simp] theorem advance_bank (r : PeerRegs) : (advance r).bank = r.bank := by
  unfold advance; split_ifs <;> rfl

/-- The empty list is in canonical form. -/
theorem Memory.wf_nil : Memory.wf [] := ⟨.nil, by simp⟩

theorem Peer.writeByte_wf (plane : Bank) (b : Byte) {p : Peer} (h : Memory.wf p.ram) :
    Memory.wf (p.writeByte plane b).ram := by
  unfold Peer.writeByte
  split
  · exact Memory.wf_ramWrite b (ramAddr_lt _ _ _) h
  · exact Memory.wf_nil

theorem Peer.writeBytes_wf (plane : Bank) (d : List Byte) {p : Peer} (h : Memory.wf p.ram) :
    Memory.wf (p.writeBytes plane d).ram := by
  induction d generalizing p with
  | nil => exact h
  | cons b bs ih => exact ih (Peer.writeByte_wf plane b h)

theorem Peer.writeBulk_wf (plane : Bank) (d : List Byte) {p : Peer} (h : Memory.wf p.ram) :
    Memory.wf (p.writeBulk plane d).ram := by
  unfold Peer.writeBulk
  split
  · exact Peer.writeBytes_wf plane d h
  · exact Memory.wf_nil

theorem Peer.readByte_wf (raw : Byte) {p : Peer} (h : Memory.wf p.ram) : Memory.wf (p.readByte raw).2.ram := by
  unfold Peer.readByte
  split
  · dsimp only
    split
    · exact h
    · exact Memory.wf_ramWrite raw (ramAddr_lt _ _ _) h
  · exact Memory.wf_nil

/-- A byte that is known reads as it is and is not changed by the read (R97). -/
theorem Peer.readByte_known {raw b : Byte} {p : Peer} (hw : inWindow p.regs = true)
    (h : ramRead p.ram (ramAddr p.regs.bank p.regs.cx p.regs.cy) = some b) :
    p.readByte raw = (b, { p with regs := advance p.regs }) := by
  rw [Peer.readByte, if_pos hw]; dsimp only; rw [h]

theorem Peer.readBytes_wf (raws : List Byte) {p : Peer} (h : Memory.wf p.ram) :
    Memory.wf (p.readBytes raws).2.ram := by
  induction raws generalizing p with
  | nil => exact h
  | cons r rs ih => exact ih (Peer.readByte_wf r h)

theorem Peer.readBulk_wf (raws : List Byte) {p : Peer} (h : Memory.wf p.ram) :
    Memory.wf (p.readBulk raws).2.ram := by
  unfold Peer.readBulk
  split
  · exact Peer.readBytes_wf _ h
  · exact Memory.wf_nil

/-- Visiting addresses keeps the canonical form where each visit does. -/
theorem Peer.visit_wf (plane : Bank) {access : Nat → List Host.Cell → List Host.Cell}
    (ha : ∀ a m, Memory.wf m → Memory.wf (access a m)) (n : Nat) {p : Peer} (h : Memory.wf p.ram) :
    Memory.wf (p.visit plane access n).ram := by
  induction n generalizing p with
  | zero => exact h
  | succ n ih =>
    refine ih ?_
    split
    · exact ha _ _ h
    · exact Memory.wf_nil

theorem Peer.touchBulk_wf (plane : Bank) {access : Nat → List Host.Cell → List Host.Cell}
    (ha : ∀ a m, Memory.wf m → Memory.wf (access a m)) (n : Nat) {p : Peer} (h : Memory.wf p.ram) :
    Memory.wf (p.touchBulk plane access n).ram := by
  unfold Peer.touchBulk
  split
  · exact Peer.visit_wf plane ha n h
  · exact Memory.wf_nil

/-- A read returns as many bytes as the environment offers. -/
@[simp] theorem Peer.readBytes_length (raws : List Byte) (p : Peer) : (p.readBytes raws).1.length = raws.length := by
  induction raws generalizing p with
  | nil => rfl
  | cons r rs ih => simp [Peer.readBytes, ih]

/-- What a frame that moves no data does to the RAM: nothing, one plane forgotten, or all forgotten. -/
def RamCases (p q : Peer) : Prop := q.ram = p.ram ∨ (∃ b, q.ram = ramForget b p.ram) ∨ q.ram = []

theorem RamCases.same {p q : Peer} (h : q.ram = p.ram) : RamCases p q := .inl h
theorem RamCases.plane {p q : Peer} (b : Bank) (h : q.ram = ramForget b p.ram) : RamCases p q := .inr (.inl ⟨b, h⟩)
theorem RamCases.all {p q : Peer} (h : q.ram = []) : RamCases p q := .inr (.inr h)

theorem RamCases.ite {p q r : Peer} {c : Prop} [Decidable c] (h1 : RamCases p q) (h2 : RamCases p r) :
    RamCases p (if c then q else r) := by
  by_cases h : c
  · rw [if_pos h]; exact h1
  · rw [if_neg h]; exact h2

/-- The canonical form of a RAM that is the old one, one without a plane, or empty. -/
theorem RamCases.wf {p q : Peer} (h : Memory.wf p.ram) (e : RamCases p q) : Memory.wf q.ram := by
  rcases e with e | ⟨b, e⟩ | e <;> rw [e]
  · exact h
  · exact Memory.wf_ramForget b h
  · exact Memory.wf_nil

theorem Peer.acceptRegister_ram (c : Byte) (d : List Byte) (p : Peer) : RamCases p (p.acceptRegister c d) :=
  .ite (.same rfl) (.ite (.same rfl) (.ite (.same rfl) (.ite (.same rfl) (.ite (.same rfl) (.ite (.same rfl)
    (.ite (.same rfl) (.ite (.same rfl) (.ite (.plane _ rfl) (.ite (.plane _ rfl) (.same rfl))))))))))

theorem Peer.accept_wf (c : Byte) (d : List Byte) {p : Peer} (h : Memory.wf p.ram) : Memory.wf (p.accept c d).ram := by
  unfold Peer.accept
  split
  · exact Memory.wf_nil
  split
  · exact Peer.writeBulk_wf _ d h
  split
  · exact Peer.writeBulk_wf _ d h
  · exact (p.acceptRegister_ram c d).wf h

theorem Peer.supply_wf (c : Byte) (raws : List Byte) {p : Peer} (h : Memory.wf p.ram) :
    Memory.wf (p.supply c raws).2.ram := by
  unfold Peer.supply
  split
  · exact Memory.wf_nil
  split
  · exact Peer.readBulk_wf _ h
  · exact h

theorem Peer.touchRegister_ram (c : Byte) (p : Peer) : RamCases p (p.touchRegister c) :=
  .ite (.same rfl) (.ite (.same rfl) (.ite (.same rfl) (.ite (.same rfl) (.ite (.same rfl) (.ite (.same rfl)
    (.ite (.same rfl) (.ite (.same rfl) (.ite (.plane _ rfl) (.ite (.plane _ rfl) (.same rfl))))))))))

theorem Peer.touch_wf (c : Byte) (d : List Byte) {p : Peer} (h : Memory.wf p.ram) : Memory.wf (p.touch c d).ram := by
  unfold Peer.touch
  split
  · exact Memory.wf_nil
  split
  · exact Peer.touchBulk_wf _ (fun a _ => Memory.wf_ramErase a) _ h
  split
  · exact Peer.touchBulk_wf _ (fun a _ => Memory.wf_ramErase a) _ h
  · exact (p.touchRegister_ram c).wf h

theorem Peer.touchRead_wf (c : Byte) (k : Nat) {p : Peer} (h : Memory.wf p.ram) : Memory.wf (p.touchRead c k).ram := by
  unfold Peer.touchRead
  split
  · exact Memory.wf_nil
  split
  · exact Peer.touchBulk_wf _ (fun _ _ => id) _ h
  · exact h

/-- A read returns as many bytes as the environment offers. -/
theorem Peer.supply_length (c : Byte) (raws : List Byte) (p : Peer) : (p.supply c raws).1.length = raws.length := by
  unfold Peer.supply Peer.readBulk
  split
  · rfl
  split
  · split
    · simp only [List.length_append, List.length_take, Peer.readBytes_length, List.length_drop]; omega
    · rfl
  · rfl

end Sys2Proof.Machine
end

