-- ==== Sys2Proof/Laws/Ops.lean ====
section
/-! SUPPORT. The shared operations, each said once: the gate, the early return, taking an item, a poll, and how whole
frames follow one another. -/

namespace Sys2Proof.Machine

/-! ### The gate, the early return, the port -/

theorem gated_idle {tag : Byte} {body : State → State} {s : State} (h : s.lstate = .idle) :
    gated tag body s = body (start tag s) := if_pos h

theorem gated_not_idle {tag : Byte} {body : State → State} {s : State} (h : s.lstate ≠ .idle) :
    gated tag body s = s.answeredFail .sequenceError := (if_neg h).trans (answer_fail s (by decide))

@[simp] theorem andThen_ok (t : State) (k : State → Status × State) : andThen (.ok, t) k = k t := rfl

theorem andThen_fail {st : Status} (h : st ≠ .ok) (t : State) (k : State → Status × State) :
    andThen (st, t) k = (st, t) := if_neg h

@[simp] theorem andThen_transportError (code : Nat) (t : State) (k : State → Status × State) :
    andThen (.transportError code, t) k = (.transportError code, t) := rfl

/-- A sequence of two steps ends as the first does where that is not `Ok`, and as the second does otherwise. -/
theorem andThen_cases (r : Status × State) (k : State → Status × State) :
    (r.1 = .ok ∧ andThen r k = k r.2) ∨ (r.1 ≠ .ok ∧ andThen r k = r) := by
  by_cases h : r.1 = .ok
  · exact .inl ⟨h, if_pos h⟩
  · exact .inr ⟨h, if_neg h⟩

theorem takeItem_nil {s : State} (h : s.port = []) : takeItem s = none := by rw [takeItem, h]

theorem takeItem_request {s : State} {f : ReqFrame} {rest : List Item} (h : s.port = .request f :: rest) :
    takeItem s = some (.request f, { s with port := rest, req := f }) := by rw [takeItem, h]

theorem takeItem_wire {s : State} {f : WireFrame} {rest : List Item} (h : s.port = .wire f :: rest) :
    takeItem s = some (.wire f, { s with port := rest }) := by rw [takeItem, h]

/-! ### Transfers that are all `Ok` -/

theorem transfersOk_mono {m n : Nat} {s : State} (hmn : m ≤ n) (h : transfersOk n s) : transfersOk m s :=
  fun k hk => h k (lt_of_lt_of_le hk hmn)

/-- Two states whose environments agree on the transfers have the same ones to come. -/
theorem transfersOk_congr {n : Nat} {s t : State} (hx : t.env.xfer = s.env.xfer) (hp : t.env.xferPos = s.env.xferPos) :
    transfersOk n t ↔ transfersOk n s := by
  simp only [transfersOk, Env.transfer, hx, hp]

/-- After `m` of `m + n` transfers that are `Ok`, `n` are to come. -/
theorem transfersOk_after {m n : Nat} {s t : State} (h : transfersOk (m + n) s) (hx : t.env.xfer = s.env.xfer)
    (hp : t.env.xferPos = s.env.xferPos + m) : transfersOk n t := by
  intro k hk
  have := h (m + k) (by omega)
  simpa only [Env.transfer, hx, hp, Nat.add_assoc] using this

/-- The start of a request makes no transfer. -/
theorem transfersOk_start {n : Nat} {s : State} (g : Byte) (h : transfersOk n s) : transfersOk n (start g s) := h

theorem transfersOk_wrote {op : Byte} {d : List Byte} {n : Nat} {s : State} (h : transfersOk (transfersOf d + n) s) :
    transfersOk n (s.wrote op d) := transfersOk_after h rfl rfl

theorem transfersOk_didRead {op : Byte} {k n : Nat} {s : State} (h : transfersOk (2 + n) s) :
    transfersOk n (s.didRead op k) := transfersOk_after h rfl rfl

/-! ### Whole frames one after another -/

theorem transfersOf_pos (d : List Byte) : 0 < transfersOf d := by unfold transfersOf; split <;> decide

@[simp] theorem transfersOf_cons (b : Byte) (d : List Byte) : transfersOf (b :: d) = 2 := rfl

/-- A whole frame, then the rest. -/
theorem andThen_frameW {op : Byte} {d : List Byte} {s : State} (h : transfersOk (transfersOf d) s)
    (k : State → Status × State) : andThen (frameW op d s) k = k (s.wrote op d) := by
  rw [frameW_ok h, andThen_ok]

/-- A whole frame with a payload, and the transfers that remain. -/
theorem frameW_ok_cons {op b : Byte} {d : List Byte} {n : Nat} {s : State} (h : transfersOk (2 + n) s) :
    frameW op (b :: d) s = (.ok, s.wrote op (b :: d)) ∧ transfersOk n (s.wrote op (b :: d)) :=
  ⟨frameW_ok (transfersOk_mono (by simp) h), transfersOk_after (m := 2) h rfl rfl⟩

@[simp] theorem wroteAll_nil (s : State) : s.wroteAll [] = s := rfl
@[simp] theorem wroteAll_cons (f : Byte × List Byte) (fs : List (Byte × List Byte)) (s : State) :
    s.wroteAll (f :: fs) = (s.wrote f.1 f.2).wroteAll fs := rfl

theorem wroteAll_append (fs gs : List (Byte × List Byte)) (s : State) :
    s.wroteAll (fs ++ gs) = (s.wroteAll fs).wroteAll gs := by
  induction fs generalizing s with
  | nil => rfl
  | cons f fs ih => simp only [List.cons_append, wroteAll_cons, ih]

/-- A frame neither reads nor writes the shadows. -/
@[simp] theorem wrote_sh (op : Byte) (d : List Byte) (s : State) : (s.wrote op d).sh = s.sh := rfl
theorem wrote_withShadow (op : Byte) (d : List Byte) (h : Shadow) (s : State) :
    State.wrote op d { s with sh := h } = { s.wrote op d with sh := h } := rfl
theorem wrote_modifyShadow (op : Byte) (d : List Byte) (f : Shadow → Shadow) (s : State) :
    (modifyShadow f s).wrote op d = modifyShadow f (s.wrote op d) := rfl

theorem wroteAll_withShadow (fs : List (Byte × List Byte)) (h : Shadow) (s : State) :
    State.wroteAll fs { s with sh := h } = { s.wroteAll fs with sh := h } := by
  induction fs generalizing s with
  | nil => rfl
  | cons f fs ih => simp only [wroteAll_cons, wrote_withShadow, ih]

/-- A frame does not read `SEQ`, which it advances by its events. -/
theorem wrote_withSeq (op : Byte) (d : List Byte) (q : Option Seq) (s : State) :
    State.wrote op d { s with seq := q } =
      { s.wrote op d with seq := q.map (Seq.after (writeEvents s.cfg op d).length) } := rfl

@[simp] theorem eventsOfAll_nil (c : Cfg) : eventsOfAll c [] = 0 := rfl
@[simp] theorem eventsOfAll_cons (c : Cfg) (f : Byte × List Byte) (fs : List (Byte × List Byte)) :
    eventsOfAll c (f :: fs) = (writeEvents c f.1 f.2).length + eventsOfAll c fs := by simp [eventsOfAll]

/-- Frames do not read `SEQ`, which they advance by their events. -/
theorem wroteAll_withSeq (fs : List (Byte × List Byte)) (q : Option Seq) (s : State) :
    State.wroteAll fs { s with seq := q } = { s.wroteAll fs with seq := q.map (Seq.after (eventsOfAll s.cfg fs)) } := by
  induction fs generalizing s q with
  | nil => simp
  | cons f fs ih =>
    rw [wroteAll_cons, wrote_withSeq, ih, eventsOfAll_cons, Seq.map_after]
    rfl

/-- The frames of a request are those of its state before it started, `SEQ` apart. -/
theorem wroteAll_start (g : Byte) (fs : List (Byte × List Byte)) (s : State) :
    State.wroteAll fs (start g s) =
      { s.wroteAll fs with seq := some { tag := g, index := eventsOfAll s.cfg fs } } :=
  (wroteAll_withSeq fs (some { tag := g, index := 0 }) s).trans (by simp [Seq.after])

/-- The answer of a request does not depend on its `SEQ`. -/
theorem answeredOk_withSeq (q : Option Seq) (s : State) : State.answeredOk { s with seq := q } = s.answeredOk := rfl
theorem answeredOk_wroteAll_start (g : Byte) (fs : List (Byte × List Byte)) (h : Shadow) (s : State) :
    State.answeredOk { State.wroteAll fs (start g s) with sh := h } = State.answeredOk { s.wroteAll fs with sh := h } := by
  rw [wroteAll_start]; rfl
theorem answeredFail_withSeq (st : Status) (q : Option Seq) (s : State) :
    State.answeredFail st { s with seq := q } = s.answeredFail st := rfl

@[simp] theorem wroteAll_sh (fs : List (Byte × List Byte)) (s : State) : (s.wroteAll fs).sh = s.sh := by
  induction fs generalizing s with
  | nil => rfl
  | cons f fs ih => rw [wroteAll_cons, ih, wrote_sh]

theorem wroteAll_modifyShadow (fs : List (Byte × List Byte)) (f : Shadow → Shadow) (s : State) :
    (modifyShadow f s).wroteAll fs = modifyShadow f (s.wroteAll fs) := by
  show State.wroteAll fs { s with sh := f s.sh } = { s.wroteAll fs with sh := f (s.wroteAll fs).sh }
  rw [wroteAll_withShadow, wroteAll_sh]

@[simp] theorem wrote_lstate (op : Byte) (d : List Byte) (s : State) : (s.wrote op d).lstate = s.lstate := rfl
@[simp] theorem wrote_cfg (op : Byte) (d : List Byte) (s : State) : (s.wrote op d).cfg = s.cfg := rfl
@[simp] theorem wrote_rsp (op : Byte) (d : List Byte) (s : State) : (s.wrote op d).rsp = s.rsp := rfl
@[simp] theorem wrote_seq (op : Byte) (d : List Byte) (s : State) :
    (s.wrote op d).seq = s.seq.map (Seq.after (writeEvents s.cfg op d).length) := rfl
@[simp] theorem wrote_port (op : Byte) (d : List Byte) (s : State) : (s.wrote op d).port = s.port := rfl
@[simp] theorem wrote_req (op : Byte) (d : List Byte) (s : State) : (s.wrote op d).req = s.req := rfl
@[simp] theorem wrote_free (op : Byte) (d : List Byte) (s : State) : (s.wrote op d).free = s.free := rfl
@[simp] theorem wroteAll_lstate (fs : List (Byte × List Byte)) (s : State) : (s.wroteAll fs).lstate = s.lstate := by
  induction fs generalizing s with
  | nil => rfl
  | cons f fs ih => rw [wroteAll_cons, ih, wrote_lstate]
@[simp] theorem wroteAll_cfg (fs : List (Byte × List Byte)) (s : State) : (s.wroteAll fs).cfg = s.cfg := by
  induction fs generalizing s with
  | nil => rfl
  | cons f fs ih => rw [wroteAll_cons, ih, wrote_cfg]
@[simp] theorem wroteAll_rsp (fs : List (Byte × List Byte)) (s : State) : (s.wroteAll fs).rsp = s.rsp := by
  induction fs generalizing s with
  | nil => rfl
  | cons f fs ih => rw [wroteAll_cons, ih, wrote_rsp]

/-- The environment after whole frames: only the count of transfers has moved. -/
theorem wroteAll_env (fs : List (Byte × List Byte)) (s : State) :
    (s.wroteAll fs).env = { s.env with xferPos := s.env.xferPos + transfersOfAll fs } := by
  induction fs generalizing s with
  | nil => rfl
  | cons f fs ih => rw [wroteAll_cons, ih]; simp [State.wrote, transfersOfAll, Nat.add_assoc]

@[simp] theorem transfersOfAll_nil : transfersOfAll [] = 0 := rfl
@[simp] theorem transfersOfAll_cons (f : Byte × List Byte) (fs : List (Byte × List Byte)) :
    transfersOfAll (f :: fs) = transfersOf f.2 + transfersOfAll fs := by simp [transfersOfAll]
@[simp] theorem transfersOfAll_append (fs gs : List (Byte × List Byte)) :
    transfersOfAll (fs ++ gs) = transfersOfAll fs + transfersOfAll gs := by simp [transfersOfAll]

theorem transfersOk_wroteAll {fs : List (Byte × List Byte)} {n : Nat} {s : State}
    (h : transfersOk (transfersOfAll fs + n) s) : transfersOk n (s.wroteAll fs) :=
  transfersOk_after h (by rw [wroteAll_env]) (by rw [wroteAll_env])

/-! ### The busy line -/

/-- The line reads deasserted where the environment says so, whatever stands behind it. -/
theorem busyLevel_ready {s : State} (h : s.env.busyAt s.env.busyPos = false) : busyLevel s = false := by
  unfold busyLevel; split <;> simp [h]

theorem busyLevel_busy {s : State} (h : busyFor 1 s) : busyLevel s = true := by
  have h0 : s.env.busyAt s.env.busyPos = true := h.2 0 (by decide)
  unfold busyLevel
  split
  · rename_i hr; simp [h.1 hr, h0]
  · exact h0

/-- A poll that reads deasserted. -/
theorem readBusy_ready {s : State} (h : busyLevel s = false) : readBusy s = (false, s.polledReady) := by
  cases hr : s.env.refPeer <;> simp [readBusy, h, modifyPeer, hr, emit, State.polledReady]

/-- A poll that reads asserted. -/
theorem readBusy_busy {s : State} (h : busyLevel s = true) :
    readBusy s = (true, { s with
      trace := s.trace ++ [(s.lstate, .busy true)], seq := s.seq.map (Seq.after 1)
      env := { s.env with busyPos := s.env.busyPos + 1 } }) := by
  simp [readBusy, h, emit]

/-- Everything a poll can do: it records the level it read, advances `SEQ` and takes one sample;
only the peer's busy condition can change besides. -/
theorem readBusy_cases (s : State) :
    ∃ p, (readBusy s).2 = { s with
        trace := s.trace ++ [(s.lstate, .busy (readBusy s).1)], seq := s.seq.map (Seq.after 1)
        env := { s.env with busyPos := s.env.busyPos + 1 }, peer := p } ∧
      (p = s.peer ∨ p = { s.peer with busy := false }) := by
  unfold readBusy
  cases hb : busyLevel s <;> cases hr : s.env.refPeer
  · exact ⟨s.peer, by simp [modifyPeer, hr, emit], .inl rfl⟩
  · exact ⟨{ s.peer with busy := false }, by simp [modifyPeer, hr, emit], .inr rfl⟩
  · exact ⟨s.peer, by simp [emit], .inl rfl⟩
  · exact ⟨s.peer, by simp [emit], .inl rfl⟩

end Sys2Proof.Machine
end

