-- ==== Sys2Proof/Laws/Ran.lean ====
section
/-! SUPPORT. What every sequence of frames keeps, as one relation between the state before and the status and state after,
closed under the early return: the frames below a request are proved to satisfy it once, and the rules about all requests
follow from it. -/

namespace Sys2Proof.Machine

/-- The events a sequence of frames can make. -/
def frameEvent (c : Cfg) : Event → Prop
  | .cs _ => True
  | .dc _ => True
  | .act _ => c.hasAct = true
  | .tx t _ _ => t = c.timeout
  | .rx t _ _ _ => t = c.timeout
  | _ => False

/-- Frames ran from `s`, one after another, and ended with the status and state `r`. -/
structure Ran (s : State) (r : Status × State) : Prop where
  cfg    : r.2.cfg = s.cfg
  lstate : r.2.lstate = s.lstate
  port   : r.2.port = s.port
  req    : r.2.req = s.req
  free   : r.2.free = s.free
  script : r.2.env.xfer = s.env.xfer
  bytes  : r.2.env.bytes = s.env.bytes
  busy   : r.2.env.busy = s.env.busy ∧ r.2.env.busyPos = s.env.busyPos
  ref    : r.2.env.refPeer = s.env.refPeer
  line   : s.line = Lines.idle → r.2.line = Lines.idle
  rst    : r.2.line.rst = s.line.rst
  trace  : ∃ es, r.2.trace = s.trace ++ stamp s.lstate es ∧ (∀ e ∈ es, frameEvent s.cfg e) ∧ busOk es
  pos    : s.env.xferPos ≤ r.2.env.xferPos
  ok     : r.1 = .ok → ∀ k, s.env.xferPos ≤ k → k < r.2.env.xferPos → s.env.transfer k = .ok
  failed : ∀ code, r.1 = .transportError code →
    ∃ k, s.env.xferPos ≤ k ∧ r.2.env.xferPos = k + 1 ∧ s.env.transfer k = .fail code ∧
      ∀ j, s.env.xferPos ≤ j → j < k → s.env.transfer j = .ok
  noSeq  : r.1 ≠ .sequenceError
  ram    : Memory.wf s.peer.ram → Memory.wf r.2.peer.ram

theorem busOk_nil : busOk [] := rfl

theorem busOk_append {es fs : List Event} (h1 : busOk es) (h2 : busOk fs) : busOk (es ++ fs) := by
  unfold busOk at *; rw [List.foldl_append, h1, h2]

theorem stamp_append (l : LState) (es fs : List Event) : stamp l (es ++ fs) = stamp l es ++ stamp l fs := by
  simp [stamp]

@[simp] theorem map_snd_stamp (l : LState) (es : List Event) : (stamp l es).map Prod.snd = es := by
  simp [stamp]

/-- Nothing ran. -/
theorem Ran.refl (s : State) {st : Status} (h1 : ∀ code, st ≠ .transportError code) (h2 : st ≠ .sequenceError) :
    Ran s (st, s) where
  cfg := rfl
  lstate := rfl
  port := rfl
  req := rfl
  free := rfl
  script := rfl
  bytes := rfl
  busy := ⟨rfl, rfl⟩
  ref := rfl
  line := id
  rst := rfl
  trace := ⟨[], by simp [stamp], by simp, busOk_nil⟩
  pos := le_rfl
  ok := fun _ k h1 h2 => absurd h2 (by simpa using h1)
  failed := fun code h => absurd h (h1 code)
  noSeq := h2
  ram := id

/-- What ran after frames that ended `Ok`. -/
theorem Ran.trans {s t : State} {r : Status × State} (h1 : Ran s (.ok, t)) (h2 : Ran t r) : Ran s r where
  cfg := h2.cfg.trans h1.cfg
  lstate := h2.lstate.trans h1.lstate
  port := h2.port.trans h1.port
  req := h2.req.trans h1.req
  free := h2.free.trans h1.free
  script := h2.script.trans h1.script
  bytes := h2.bytes.trans h1.bytes
  busy := ⟨h2.busy.1.trans h1.busy.1, h2.busy.2.trans h1.busy.2⟩
  ref := h2.ref.trans h1.ref
  line := fun h => h2.line (h1.line h)
  rst := h2.rst.trans h1.rst
  trace := by
    obtain ⟨es, e1, e2, e3⟩ := h1.trace
    obtain ⟨fs, f1, f2, f3⟩ := h2.trace
    refine ⟨es ++ fs, ?_, ?_, busOk_append e3 f3⟩
    · rw [f1, e1, h1.lstate, stamp_append, List.append_assoc]
    · intro e he
      rcases List.mem_append.mp he with he | he
      · exact e2 e he
      · have h := f2 e he; rw [h1.cfg] at h; exact h
  pos := le_trans h1.pos h2.pos
  ok := by
    intro hr k hk1 hk2
    have hx : ∀ j, t.env.transfer j = s.env.transfer j := fun j => by
      have := h1.script; simp only at this; simp only [Env.transfer, this]
    by_cases hk : k < t.env.xferPos
    · exact h1.ok rfl k hk1 hk
    · rw [← hx]; exact h2.ok hr k (by omega) hk2
  failed := by
    intro code hr
    have hx : ∀ j, t.env.transfer j = s.env.transfer j := fun j => by
      have := h1.script; simp only at this; simp only [Env.transfer, this]
    obtain ⟨k, k1, k2, k3, k4⟩ := h2.failed code hr
    refine ⟨k, le_trans h1.pos k1, k2, by rw [← hx]; exact k3, fun j j1 j2 => ?_⟩
    by_cases hj : j < t.env.xferPos
    · exact h1.ok rfl j j1 hj
    · rw [← hx]; exact k4 j (by omega) j2
  noSeq := h2.noSeq
  ram := fun h => h2.ram (h1.ram h)

/-- The early return keeps the relation. -/
theorem Ran.andThen {s : State} {r : Status × State} {k : State → Status × State} (h1 : Ran s r)
    (h2 : ∀ t, r = (.ok, t) → Ran t (k t)) : Ran s (Machine.andThen r k) := by
  obtain ⟨st, t⟩ := r
  rcases andThen_cases (st, t) k with ⟨h, e⟩ | ⟨_, e⟩ <;> rw [e]
  · obtain rfl : st = .ok := h
    exact h1.trans (h2 t rfl)
  · exact h1

/-- Shadows do not matter to the relation. -/
theorem Ran.withShadow {s : State} {st : Status} {t : State} (f : Shadow → Shadow) (h : Ran s (st, t)) :
    Ran s (st, modifyShadow f t) := ⟨h.1, h.2, h.3, h.4, h.5, h.6, h.7, h.8, h.9, h.10, h.11, h.12, h.13, h.14, h.15,
      h.16, h.17⟩

theorem Ran.ofShadow {s : State} {r : Status × State} (f : Shadow → Shadow) (h : Ran (modifyShadow f s) r) : Ran s r :=
  ⟨h.1, h.2, h.3, h.4, h.5, h.6, h.7, h.8, h.9, h.10, h.11, h.12, h.13, h.14, h.15, h.16, h.17⟩

/-- The start of a request does not matter to the relation: `SEQ` is no part of it. -/
theorem Ran.ofStart {g : Byte} {s : State} {r : Status × State} (h : Ran (start g s) r) : Ran s r :=
  ⟨h.1, h.2, h.3, h.4, h.5, h.6, h.7, h.8, h.9, h.10, h.11, h.12, h.13, h.14, h.15, h.16, h.17⟩

/-- Response fields do not matter to the relation. -/
theorem Ran.withBody {s : State} {st : Status} {t : State} (f : ResponseBody → ResponseBody) (h : Ran s (st, t)) :
    Ran s (st, modifyBody f t) := ⟨h.1, h.2, h.3, h.4, h.5, h.6, h.7, h.8, h.9, h.10, h.11, h.12, h.13, h.14, h.15,
      h.16, h.17⟩

theorem restored_idle {s : State} (h : s.line = Lines.idle) : restored s = Lines.idle := by
  unfold restored; rw [h]; split <;> rfl

/-- A write frame. -/
theorem Ran.frameW (op : Byte) (d : List Byte) (s : State) : Ran s (Machine.frameW op d s) := by
  rcases frameW_cases op d s with ⟨h, e⟩ | ⟨code, h, e⟩ | ⟨code, hd, h0, h, e⟩ <;> rw [e]
  · exact {
      cfg := rfl, lstate := rfl, port := rfl, req := rfl, free := rfl, script := rfl, bytes := rfl
      busy := ⟨rfl, rfl⟩, ref := rfl, line := restored_idle, rst := rfl
      trace := ⟨_, rfl, by
          intro e he
          unfold writeEvents actEvents at he
          cases ha : s.cfg.hasAct <;> by_cases hd : d = [] <;> simp [ha, hd] at he <;>
            rcases he with he | he | he | he | he | he | he | he <;> simp_all [frameEvent], by
          unfold busOk writeEvents actEvents
          cases s.cfg.hasAct <;> cases d <;> rfl⟩
      pos := Nat.le_add_right _ _
      ok := fun _ k h1 h2 => by
        have h2 : k < s.env.xferPos + transfersOf d := h2
        have := h (k - s.env.xferPos) (by omega)
        rwa [Nat.add_sub_cancel' h1] at this
      failed := fun code h => by simp at h
      noSeq := by simp
      ram := fun h => by
        show Memory.wf (if s.env.refPeer then s.peer.accept op d else s.peer).ram
        split
        · exact Peer.accept_wf op d h
        · exact h }
  · exact {
      cfg := rfl, lstate := rfl, port := rfl, req := rfl, free := rfl, script := rfl, bytes := rfl
      busy := ⟨rfl, rfl⟩, ref := rfl, line := restored_idle, rst := rfl
      trace := ⟨_, rfl, by
          intro e he
          unfold opcodeFailEvents actEvents at he
          cases ha : s.cfg.hasAct <;> simp [ha] at he <;>
            rcases he with he | he | he | he | he | he | he <;> simp_all [frameEvent], by
          unfold busOk opcodeFailEvents actEvents
          cases s.cfg.hasAct <;> rfl⟩
      pos := Nat.le_add_right _ _
      ok := fun h => by simp at h
      failed := fun c hc => ⟨s.env.xferPos, le_rfl, rfl, by simp at hc; exact hc ▸ h, fun j h1 h2 => by omega⟩
      noSeq := by simp
      ram := fun h => by
        show Memory.wf (if s.env.refPeer then s.peer.touch op d else s.peer).ram
        split
        · exact Peer.touch_wf op d h
        · exact h }
  · exact {
      cfg := rfl, lstate := rfl, port := rfl, req := rfl, free := rfl, script := rfl, bytes := rfl
      busy := ⟨rfl, rfl⟩, ref := rfl, line := restored_idle, rst := rfl
      trace := ⟨_, rfl, by
          intro e he
          unfold payloadFailEvents actEvents at he
          cases ha : s.cfg.hasAct <;> simp [ha] at he <;>
            rcases he with he | he | he | he | he | he | he | he <;> simp_all [frameEvent], by
          unfold busOk payloadFailEvents actEvents
          cases s.cfg.hasAct <;> cases d <;> first | rfl | exact absurd rfl hd⟩
      pos := Nat.le_add_right _ _
      ok := fun h => by simp at h
      failed := fun c hc => ⟨s.env.xferPos + 1, by omega, rfl, by simp at hc; exact hc ▸ h, fun j h1 h2 => by
        obtain rfl : j = s.env.xferPos := by omega
        exact h0⟩
      noSeq := by simp
      ram := fun h => by
        show Memory.wf (if s.env.refPeer then s.peer.touch op d else s.peer).ram
        split
        · exact Peer.touch_wf op d h
        · exact h }

/-- A read frame. -/
theorem Ran.frameR (op : Byte) (k : Nat) (s : State) :
    Ran s ((Machine.frameR op k s).1.1, (Machine.frameR op k s).2) := by
  rcases Nat.eq_zero_or_pos k with rfl | hk
  · rw [frameR_zero]; exact Ran.frameW op [] s
  rcases frameR_cases op s hk with ⟨h, e⟩ | ⟨code, h, e⟩ | ⟨code, h0, h, e⟩ <;> rw [e]
  · exact {
      cfg := rfl, lstate := rfl, port := rfl, req := rfl, free := rfl, script := rfl, bytes := rfl
      busy := ⟨rfl, rfl⟩, ref := rfl, line := restored_idle, rst := rfl
      trace := ⟨_, rfl, by
          intro e he
          unfold readEvents actEvents at he
          cases ha : s.cfg.hasAct <;> simp [ha] at he <;>
            rcases he with he | he | he | he | he | he | he | he <;> simp_all [frameEvent], by
          obtain ⟨k, rfl⟩ : ∃ j, k = j + 1 := ⟨k - 1, by omega⟩
          unfold busOk readEvents actEvents
          cases s.cfg.hasAct <;> rfl⟩
      pos := Nat.le_add_right _ _
      ok := fun _ j h1 h2 => by
        have h2 : j < s.env.xferPos + 2 := h2
        have := h (j - s.env.xferPos) (by omega)
        rwa [Nat.add_sub_cancel' h1] at this
      failed := fun code h => by simp at h
      noSeq := by simp
      ram := fun h => by
        show Memory.wf (offered op k s).2.ram
        unfold offered
        dsimp only
        split
        · exact Peer.supply_wf op _ h
        · exact h }
  · exact {
      cfg := rfl, lstate := rfl, port := rfl, req := rfl, free := rfl, script := rfl, bytes := rfl
      busy := ⟨rfl, rfl⟩, ref := rfl, line := restored_idle, rst := rfl
      trace := ⟨_, rfl, by
          intro e he
          unfold opcodeFailEvents actEvents at he
          cases ha : s.cfg.hasAct <;> simp [ha] at he <;>
            rcases he with he | he | he | he | he | he | he <;> simp_all [frameEvent], by
          unfold busOk opcodeFailEvents actEvents
          cases s.cfg.hasAct <;> rfl⟩
      pos := Nat.le_add_right _ _
      ok := fun h => by simp at h
      failed := fun c hc => ⟨s.env.xferPos, le_rfl, rfl, by simp at hc; exact hc ▸ h, fun j h1 h2 => by omega⟩
      noSeq := by simp
      ram := fun h => by
        show Memory.wf (if s.env.refPeer then s.peer.touchRead op k else s.peer).ram
        split
        · exact Peer.touchRead_wf op k h
        · exact h }
  · exact {
      cfg := rfl, lstate := rfl, port := rfl, req := rfl, free := rfl, script := rfl, bytes := rfl
      busy := ⟨rfl, rfl⟩, ref := rfl, line := restored_idle, rst := rfl
      trace := ⟨_, rfl, by
          intro e he
          unfold readFailEvents actEvents at he
          cases ha : s.cfg.hasAct <;> simp [ha] at he <;>
            rcases he with he | he | he | he | he | he | he | he <;> simp_all [frameEvent], by
          obtain ⟨k, rfl⟩ : ∃ j, k = j + 1 := ⟨k - 1, by omega⟩
          unfold busOk readFailEvents actEvents
          cases s.cfg.hasAct <;> rfl⟩
      pos := Nat.le_add_right _ _
      ok := fun h => by simp at h
      failed := fun c hc => ⟨s.env.xferPos + 1, by omega, rfl, by simp at hc; exact hc ▸ h, fun j h1 h2 => by
        obtain rfl : j = s.env.xferPos := by omega
        exact h0⟩
      noSeq := by simp
      ram := fun h => by
        show Memory.wf (if s.env.refPeer then s.peer.touchRead op k else s.peer).ram
        split
        · exact Peer.touchRead_wf op k h
        · exact h }

end Sys2Proof.Machine
end

