-- ==== Sys2Proof/Laws/Window.lean ====
section
/-! SUPPORT. The window bodies, the region transfers and the text loop: what each does when its transfers are `Ok`, and
that each keeps the relation `Ran`. -/

namespace Sys2Proof.Machine

/-! ### Field values -/

@[simp] theorem ysField_toNat (t : W16) : ysField t.toNat = t := by
  apply BitVec.eq_of_toNat_eq
  simp [ysField, trunc16]

@[simp] theorem yeField_toNat (t h : W16) : yeField t.toNat h.toNat = t + h - 1 := by
  apply BitVec.eq_of_toNat_eq
  simp [yeField, trunc16]
  omega

/-- A received run of bytes has the length asked for. -/
@[simp] theorem offered_length (c : Byte) (k : Nat) (s : State) : (offered c k s).1.length = k := by
  unfold offered
  dsimp only
  split
  · rw [Peer.supply_length]; simp [Env.nextBytes]
  · simp [Env.nextBytes]

/-! ### Whole bodies -/

theorem frameXRange_ok {xs xe : Byte} {s : State} (h : transfersOk 2 s) :
    frameXRange xs xe s = (.ok, { s.wrote 0x44 [xs, xe] with sh := { s.sh with xs := xs, xe := xe, hv := true } }) := by
  simp only [frameXRange, frameW_ok (op := 0x44) (d := [xs, xe]) h]; rfl

theorem frameYRange_ok {ys ye : W16} {s : State} (h : transfersOk 2 s) :
    frameYRange ys ye s = (.ok, { s.wrote 0x45 (le16 ys ++ le16 ye) with
      sh := { s.sh with ys := ys, ye := ye, vv := true } }) := by
  simp only [frameYRange, frameW_ok (op := 0x45) (d := le16 ys ++ le16 ye) h]; rfl

theorem frameXCounter_ok {x : Byte} {s : State} (h : transfersOk 2 s) :
    frameXCounter x s = (.ok, { s.wrote 0x4E [x] with sh := { s.sh with cx := x, cxv := true } }) := by
  simp only [frameXCounter, frameW_ok (op := 0x4E) (d := [x]) h]; rfl

theorem frameYCounter_ok {y : W16} {s : State} (h : transfersOk 2 s) :
    frameYCounter y s = (.ok, { s.wrote 0x4F (le16 y) with sh := { s.sh with cy := y, cyv := true } }) := by
  simp only [frameYCounter, frameW_ok (op := 0x4F) (d := le16 y) h]; rfl

theorem aligned_iff (v : Nat) : aligned v = true ↔ v % 8 = 0 := by simp [aligned]

theorem hRange_misaligned {l w : Nat} (h : l % 8 ≠ 0 ∨ w % 8 ≠ 0) (s : State) : hRange l w s = (.alignmentError, s) := by
  rw [hRange, if_neg]; rw [aligned_iff, aligned_iff]; tauto

theorem hRange_aligned {l w : Nat} (hl : l % 8 = 0) (hw : w % 8 = 0) (s : State) :
    hRange l w s = frameXRange (xsField l) (xeField l w) s := by
  rw [hRange, if_pos]; exact ⟨(aligned_iff l).2 hl, (aligned_iff w).2 hw⟩

theorem startAddr_misaligned {x : W16} (h : x.toNat % 8 ≠ 0) (y : W16) (s : State) :
    startAddr x y s = (.alignmentError, s) := by
  rw [startAddr, if_neg]; rwa [aligned_iff]

theorem startAddr_aligned {x : W16} (h : x.toNat % 8 = 0) (y : W16) (s : State) :
    startAddr x y s = andThen (frameXCounter (cxField x.toNat) s) (frameYCounter y) := by
  rw [startAddr, if_pos]; exact (aligned_iff _).2 h

theorem startAddr_ok {x y : W16} {s : State} (hx : x.toNat % 8 = 0) (h : transfersOk 4 s) :
    startAddr x y s = (.ok, { s.wroteAll (counterFrames x y) with
      sh := { s.sh with cx := cxField x.toNat, cy := y, cxv := true, cyv := true } }) := by
  rw [startAddr_aligned hx, frameXCounter_ok (transfersOk_mono (by decide) h), andThen_ok,
    frameYCounter_ok]
  · rfl
  · exact transfersOk_after (m := 2) h rfl rfl

/-- Both range frames. -/
theorem ranges_ok {l t : W16} {w h : Nat} {s : State} (hl : l.toNat % 8 = 0) (hw : w % 8 = 0) (hs : transfersOk 4 s)
    (k : State → Status × State) :
    andThen (hRange l.toNat w s) (fun s => andThen (vRange t.toNat h s) k) =
      k { s.wroteAll (windowFrames l t w h) with sh := s.sh.window l t w h } := by
  rw [hRange_aligned hl hw, frameXRange_ok (transfersOk_mono (by decide) hs), andThen_ok, vRange,
    frameYRange_ok, andThen_ok]
  · rfl
  · exact transfersOk_after (m := 2) hs rfl rfl

theorem bulkWrite_ok {c : Byte} {d : List Byte} {s : State} (h : transfersOk (transfersOf d) s) :
    bulkWrite c d s = (.ok, { s.wrote c d with sh := { s.sh with cxv := false, cyv := false } }) := by
  rw [bulkWrite, frameW_ok]
  · rfl
  · exact h

theorem bulkRead_ok {n : Nat} {s : State} (h : transfersOk 2 s) :
    bulkRead n s = ((.ok, (offered 0x27 (2 + n) s).1.drop 2),
      { s.didRead 0x27 (2 + n) with sh := { s.sh with cxv := false, cyv := false } }) := by
  have h' : transfersOk 2 (modifyShadow Shadow.invalidateCounter s) := h
  simp only [bulkRead, frameR_ok (op := 0x27) (k := Config.dummyReadBytes + n)
    (Nat.lt_of_lt_of_le (by decide) (Nat.le_add_right 2 n)) h']
  rfl

/-- The counter frames and a bulk write. -/
theorem placed_ok {c : Byte} {d : List Byte} {x y : W16} {s : State} (hx : x.toNat % 8 = 0)
    (h : transfersOk (4 + transfersOf d) s) :
    andThen (startAddr x y s) (bulkWrite c d) =
      (.ok, { s.wroteAll (counterFrames x y ++ [(c, d)]) with sh := s.sh.moved x y }) := by
  rw [startAddr_ok hx (transfersOk_mono (by omega) h), andThen_ok, bulkWrite_ok]
  · rfl
  · exact transfersOk_after (m := 4) h rfl rfl

theorem transfersOf_le16 (v : W16) : transfersOf (le16 v) = 2 := rfl

/-- The transfers of the range frames, and of one plane. -/
theorem transfersOfAll_window (l t : W16) (w h : Nat) : transfersOfAll (windowFrames l t w h) = 4 := rfl

theorem transfersOfAll_plane (c : Byte) (l t : W16) (b : List Byte) :
    transfersOfAll (planeFrames c l t (some b)) = 4 + transfersOf b := by
  simp only [planeFrames, counterFrames, transfersOfAll_append, transfersOfAll_cons, transfersOfAll_nil,
    transfersOf_le16, transfersOf_cons]
  omega

/-- The frames of one plane of `WRITE_REGION`. -/
theorem writePlane_ok {c : Byte} {b : Option (List Byte)} {l t : W16} {s : State} (hl : l.toNat % 8 = 0)
    (h : transfersOk (transfersOfAll (planeFrames c l t b)) s) :
    writePlane c b l t s = (.ok, { s.wroteAll (planeFrames c l t b) with
      sh := if b = none then s.sh else s.sh.moved l t }) := by
  cases b with
  | none => rfl
  | some b =>
    rw [transfersOfAll_plane] at h
    rw [writePlane, placed_ok hl h]
    rfl

theorem readInto_ok {b : Bank} {n : Nat} {s : State} (h : transfersOk 2 s) :
    readInto b n s = (.ok, modifyBody (putPlane b ((offered 0x27 (2 + n) s).1.drop 2))
      { s.didRead 0x27 (2 + n) with sh := { s.sh with cxv := false, cyv := false } }) := by
  simp only [readInto, bulkRead_ok h, if_true]

/-- The frames of one wanted plane of `READ_REGION`. -/
theorem readPlane_ok {b : Bank} {l t : W16} {n : Nat} {s : State} (hl : l.toNat % 8 = 0) (h : transfersOk 8 s) :
    readPlane b true l t n s =
      (.ok, modifyBody (putPlane b (s.fetchedData b l t n)) { s.fetched b l t n with sh := s.sh.moved l t }) := by
  have h1 : transfersOk 4 (s.wrote 0x41 [bankCode b]) :=
    transfersOk_after (m := 2) (transfersOk_mono (by decide) h) rfl rfl
  rw [readPlane, if_pos rfl, bankBody, andThen_frameW (d := [bankCode b]) (transfersOk_mono (by simp) h),
    startAddr_ok hl h1, andThen_ok, readInto_ok]
  · rfl
  · exact transfersOk_after (m := 6) h rfl rfl

/-- One cell of text. -/
theorem blit_ok {x y : W16} {f : Font} {b : List Byte} {s : State} (hx : x.toNat % 8 = 0) (hg : f.gw % 8 = 0)
    (h : transfersOk (4 + (4 + transfersOf b)) s) :
    blit x y f b s = (.ok, { s.wroteAll (windowFrames x y f.gw f.gh ++ counterFrames x y ++ [(0x24, b)]) with
      sh := (s.sh.window x y f.gw f.gh).moved x y }) := by
  rw [blit, if_pos ⟨(aligned_iff _).2 hx, (aligned_iff _).2 hg⟩, ranges_ok hx hg (transfersOk_mono (by omega) h),
    placed_ok hx]
  · rfl
  · exact transfersOk_after (m := 4) h rfl rfl

/-- A cell that is misaligned: no event. -/
theorem blit_misaligned {x : W16} {f : Font} (h : x.toNat % 8 ≠ 0 ∨ f.gw % 8 ≠ 0) (y : W16) (b : List Byte) (s : State) :
    blit x y f b s = (.alignmentError, s) := by
  rw [blit, if_neg]; rw [aligned_iff, aligned_iff]; tauto

/-- Reduction to 16 bits keeps the alignment (R298). -/
theorem trunc16_mod (a : Int) : ((trunc16 a).toNat : Int) % 8 = a % 8 := by
  have : ((trunc16 a).toNat : Int) = a % 65536 := by simp [trunc16, BitVec.toNat_ofInt]; omega
  omega

/-- A plane's read looks neither at the shadows nor at the response. -/
theorem fetched_modify (f : ResponseBody → ResponseBody) (h : Shadow) (b : Bank) (l t : W16) (n : Nat) (s : State) :
    State.fetched b l t n (modifyBody f { s with sh := h }) = modifyBody f { s.fetched b l t n with sh := h } := rfl

theorem fetchedData_modify (f : ResponseBody → ResponseBody) (h : Shadow) (b : Bank) (l t : W16) (n : Nat) (s : State) :
    State.fetchedData b l t n (modifyBody f { s with sh := h }) = s.fetchedData b l t n := rfl

theorem readPlane_withShadow {b : Bank} {l t : W16} {n : Nat} {s : State} {h : Shadow} (hl : l.toNat % 8 = 0)
    (hs : transfersOk 8 s) :
    readPlane b true l t n { s with sh := h } =
      (.ok, modifyBody (putPlane b (s.fetchedData b l t n)) { s.fetched b l t n with sh := h.moved l t }) :=
  readPlane_ok hl hs

theorem transfersOk_fetched {b : Bank} {l t : W16} {n : Nat} {s : State} {k : Nat} (h : transfersOk (8 + k) s) :
    transfersOk k (s.fetched b l t n) := transfersOk_after (m := 8) h rfl rfl

/-! ### The relation `Ran` -/

theorem Ran.frameXRange (xs xe : Byte) (s : State) : Ran s (Machine.frameXRange xs xe s) :=
  (Ran.frameW 0x44 _ s).withShadow _
theorem Ran.frameYRange (ys ye : W16) (s : State) : Ran s (Machine.frameYRange ys ye s) :=
  (Ran.frameW 0x45 _ s).withShadow _
theorem Ran.frameXCounter (x : Byte) (s : State) : Ran s (Machine.frameXCounter x s) :=
  (Ran.frameW 0x4E _ s).withShadow _
theorem Ran.frameYCounter (y : W16) (s : State) : Ran s (Machine.frameYCounter y s) :=
  (Ran.frameW 0x4F _ s).withShadow _

theorem Ran.misaligned (s : State) : Ran s (.alignmentError, s) := Ran.refl s (by simp) (by simp)
theorem Ran.nothing (s : State) : Ran s (.ok, s) := Ran.refl s (by simp) (by simp)

theorem Ran.hRange (l w : Nat) (s : State) : Ran s (Machine.hRange l w s) := by
  unfold Machine.hRange; split
  · exact Ran.frameXRange _ _ s
  · exact Ran.misaligned s

theorem Ran.vRange (t h : Nat) (s : State) : Ran s (Machine.vRange t h s) := Ran.frameYRange _ _ s

theorem Ran.startAddr (x y : W16) (s : State) : Ran s (Machine.startAddr x y s) := by
  unfold Machine.startAddr; split
  · exact (Ran.frameXCounter _ s).andThen fun t _ => Ran.frameYCounter y t
  · exact Ran.misaligned s

theorem Ran.bulkWrite (c : Byte) (d : List Byte) (s : State) : Ran s (Machine.bulkWrite c d s) :=
  (Ran.frameW c d _).ofShadow _

theorem Ran.bulkRead (n : Nat) (s : State) : Ran s ((Machine.bulkRead n s).1.1, (Machine.bulkRead n s).2) :=
  (Ran.frameR 0x27 _ (modifyShadow Shadow.invalidateCounter s)).ofShadow _

theorem Ran.writePlane (c : Byte) (b : Option (List Byte)) (l t : W16) (s : State) :
    Ran s (Machine.writePlane c b l t s) := by
  cases b with
  | none => exact Ran.nothing s
  | some b => exact (Ran.startAddr l t s).andThen fun u _ => Ran.bulkWrite c b u

theorem Ran.readInto (b : Bank) (n : Nat) (s : State) : Ran s (Machine.readInto b n s) := by
  unfold Machine.readInto
  dsimp only
  split
  · exact (Ran.bulkRead n s).withBody _
  · exact Ran.bulkRead n s

theorem Ran.readPlane (b : Bank) (want : Bool) (l t : W16) (n : Nat) (s : State) :
    Ran s (Machine.readPlane b want l t n s) := by
  unfold Machine.readPlane; split
  · exact (Ran.frameW 0x41 _ s).andThen fun u _ => (Ran.startAddr l t u).andThen fun v _ => Ran.readInto b n v
  · exact Ran.nothing s

theorem Ran.writeRegionBody (l t w h : W16) (p q : Option (List Byte)) (s : State) :
    Ran s (Machine.writeRegionBody l t w h p q s) := by
  unfold Machine.writeRegionBody; split
  · exact (Ran.hRange _ _ s).andThen fun s1 _ => (Ran.vRange _ _ s1).andThen fun s2 _ =>
      (Ran.writePlane 0x24 p l t s2).andThen fun s3 _ => Ran.writePlane 0x26 q l t s3
  · exact Ran.misaligned s

theorem Ran.readRegionBody (l t w h : W16) (a b : Bool) (s : State) :
    Ran s (Machine.readRegionBody l t w h a b s) := by
  unfold Machine.readRegionBody; split
  · exact (Ran.hRange _ _ s).andThen fun s1 _ => (Ran.vRange _ _ s1).andThen fun s2 _ =>
      (Ran.readPlane .black a l t _ s2).andThen fun s3 _ => Ran.readPlane .red b l t _ s3
  · exact Ran.misaligned s

theorem Ran.blit (x y : W16) (f : Font) (b : List Byte) (s : State) : Ran s (Machine.blit x y f b s) := by
  unfold Machine.blit; split
  · exact (Ran.hRange _ _ s).andThen fun s1 _ => (Ran.vRange _ _ s1).andThen fun s2 _ =>
      (Ran.startAddr x y s2).andThen fun s3 _ => Ran.bulkWrite 0x24 b s3
  · exact Ran.misaligned s

/-- The character loop. -/
theorem Ran.printLoop (down : Int) (origin : Int × Int → W16 × W16) (f : Font) (str : List Byte) (cur : Int × Int)
    (s : State) :
    Ran s ((Machine.printLoop down origin f str cur s).1.1, (Machine.printLoop down origin f str cur s).2) := by
  induction str generalizing cur s with
  | nil => exact Ran.nothing s
  | cons c cs ih =>
    unfold Machine.printLoop
    split
    · exact ih _ s
    · have hb := Ran.blit (origin cur).1 (origin cur).2 f (invertedGlyph f c) s
      dsimp only
      split
      · rename_i h1
        rw [← Prod.mk.eta (p := Machine.blit _ _ _ _ _), h1] at hb
        exact hb.trans (ih _ _)
      · exact hb

/-! ### The other bodies -/

theorem Ran.gateScanBody (a b : W16) (s : State) : Ran s (Machine.gateScanBody a b s) :=
  (Ran.frameW 0x0F _ s).andThen fun t _ => Ran.frameW 0x01 _ t

theorem Ran.refreshBody (s : State) : Ran s (Machine.refreshBody s) :=
  (Ran.frameW 0x0C _ s).andThen fun t _ => (Ran.frameW 0x22 _ t).andThen fun u _ => Ran.frameW 0x20 _ u

end Sys2Proof.Machine
end

