-- ==== Sys2Proof/Laws/Exec.lean ====
section
/-! SUPPORT. The lifecycle bodies, and the inversion of `exec`: an instruction outside the lifecycle file answers
`SequenceError` at the gate, or runs frames and answers with their status. -/

namespace Sys2Proof.Machine

/-! ### Lifecycle bodies -/

/-- The reset pulse of a request that starts with it (R260, R263). -/
theorem resetBody_eq (s : State) : resetBody (setLState .resetting (modifyShadow Shadow.invalidate s)) = s.pulsed := by
  cases hr : s.env.refPeer <;>
    simp [resetBody, setRst, delay, emit, setLState, modifyShadow, modifyPeer, hr, State.pulsed, stamp, Config.tRstLow,
      Config.tRstHold]

theorem waitTurn_ready {s : State} (h : busyLevel s = false) (tag : Byte) :
    waitTurn tag s = afterWait tag s.polledReady := by
  simp only [waitTurn, readBusy_ready h]; rfl

theorem waitTurn_busy {s : State} (h : busyLevel s = true) (tag : Byte) : waitTurn tag s = s.polledBusy 1 := by
  simp only [waitTurn, readBusy_busy h, State.polledBusy, delay, emit, stamp, pollEvents]
  simp [List.append_assoc]

/-- Everything a turn of the busy-wait can do: the request stays, or goes on. -/
theorem waitTurn_cases (tag : Byte) (s : State) :
    (∃ p, (p = s.peer ∨ p = { s.peer with busy := false }) ∧
      waitTurn tag s = { s with
        trace := s.trace ++ [(s.lstate, .busy true), (s.lstate, .delay Config.tPoll)]
        seq := s.seq.map (Seq.after 2), env := { s.env with busyPos := s.env.busyPos + 1 }, peer := p }) ∨
    (∃ p, (p = s.peer ∨ p = { s.peer with busy := false }) ∧
      waitTurn tag s = afterWait tag { s with
        trace := s.trace ++ [(s.lstate, .busy false)]
        seq := s.seq.map (Seq.after 1), env := { s.env with busyPos := s.env.busyPos + 1 }, peer := p }) := by
  obtain ⟨p, e, hp⟩ := readBusy_cases s
  unfold waitTurn
  cases hb : (readBusy s).1
  · refine .inr ⟨p, hp, ?_⟩
    rw [hb] at e
    simp [hb, e]
  · refine .inl ⟨p, hp, ?_⟩
    rw [hb] at e
    simp [hb, e, delay, emit]

/-- However a write frame ends, `SEQ` has advanced by the frame's events (R25). -/
theorem frameW_seq (op : Byte) (d : List Byte) (s : State) :
    ∃ n, (frameW op d s).2.seq = s.seq.map (Seq.after n) := by
  rcases frameW_cases op d s with ⟨_, e⟩ | ⟨_, _, e⟩ | ⟨_, _, _, _, e⟩ <;> rw [e] <;> exact ⟨_, rfl⟩

theorem andThen_seq {s : State} {r : Status × State} {k : State → Status × State}
    (h1 : ∃ n, r.2.seq = s.seq.map (Seq.after n)) (h2 : ∀ t, ∃ n, (k t).2.seq = t.seq.map (Seq.after n)) :
    ∃ n, (andThen r k).2.seq = s.seq.map (Seq.after n) := by
  obtain ⟨m, hm⟩ := h1
  rcases andThen_cases r k with ⟨_, e⟩ | ⟨_, e⟩ <;> rw [e]
  · obtain ⟨n, hn⟩ := h2 r.2
    exact ⟨m + n, by rw [hn, hm, Seq.map_after]⟩
  · exact ⟨m, hm⟩

theorem refreshBody_seq (s : State) : ∃ n, (Machine.refreshBody s).2.seq = s.seq.map (Seq.after n) :=
  andThen_seq (frameW_seq _ _ s) fun _ => andThen_seq (frameW_seq _ _ _) fun t => frameW_seq _ _ t

theorem Ran.configureBody (s : State) : Ran s (Machine.configureBody s) := by
  unfold Machine.configureBody
  refine (Ran.frameR 0x2E Config.userIdLen s).andThen fun t _ => ?_
  refine (Ran.gateScanBody 0 t.cfg.resY t).andThen fun t _ => ?_
  refine (Ran.frameW 0x21 (le16 (uc1Of t.cfg)) t).andThen fun t _ => ?_
  refine (Ran.frameW 0x22 [Config.uc2Full] t).andThen fun t _ => ?_
  exact (Ran.frameW 0x11 [packMode Config.demDefault] t).andThen fun t _ => Ran.frameW 0x18 [Config.tempInternal] t

/-- The two payload bytes of update-control-1 (R115, R163). -/
theorem le16_uc1Of (c : Cfg) :
    le16 (uc1Of c) =
      [if c.depth.getLsbD 0 then 0x40 else 0x00, if c.scan = .narrowScan then 0x80 else 0x00] := by
  unfold uc1Of
  cases c.depth.getLsbD 0 <;> cases c.scan <;> decide

/-- The frames of `INIT` after its busy-wait, when every transfer is `Ok`. -/
theorem configureBody_ok {s : State} (h : transfersOk 14 s) :
    Machine.configureBody s = (.ok, (s.didRead 0x2E 10).wroteAll (initFrames s.cfg)) := by
  obtain ⟨hr, h0⟩ : userIdBody s = ((.ok, (offered 0x2E 10 s).1), s.didRead 0x2E 10) ∧
      transfersOk 12 (s.didRead 0x2E 10) :=
    ⟨frameR_ok (by decide) (transfersOk_mono (by decide) h), transfersOk_after (m := 2) h rfl rfl⟩
  obtain ⟨e1, h1⟩ := frameW_ok_cons (op := 0x0F) (b := lo8 0) (d := [hi8 0]) (n := 10) h0
  obtain ⟨e2, h2⟩ := frameW_ok_cons (op := 0x01) (b := lo8 s.cfg.resY) (d := [hi8 s.cfg.resY, 0x00]) (n := 8) h1
  obtain ⟨e3, h3⟩ := frameW_ok_cons (op := 0x21) (b := lo8 (uc1Of s.cfg)) (d := [hi8 (uc1Of s.cfg)]) (n := 6) h2
  obtain ⟨e4, h4⟩ := frameW_ok_cons (op := 0x22) (b := Config.uc2Full) (d := []) (n := 4) h3
  obtain ⟨e5, h5⟩ := frameW_ok_cons (op := 0x11) (b := packMode Config.demDefault) (d := []) (n := 2) h4
  obtain ⟨e6, _⟩ := frameW_ok_cons (op := 0x18) (b := Config.tempInternal) (d := []) (n := 0) h5
  have e : initFrames s.cfg = [(0x0F, le16 0), (0x01, le16 s.cfg.resY ++ [0x00]), (0x21, le16 (uc1Of s.cfg)),
      (0x22, [Config.uc2Full]), (0x11, [packMode Config.demDefault]), (0x18, [Config.tempInternal])] := by
    rw [le16_uc1Of]; rfl
  have eg : Machine.gateScanBody 0 s.cfg.resY (s.didRead 0x2E 10) = (.ok,
      ((s.didRead 0x2E 10).wrote 0x0F [lo8 0, hi8 0]).wrote 0x01 [lo8 s.cfg.resY, hi8 s.cfg.resY, 0x00]) := by
    show andThen (frameW 0x0F [lo8 0, hi8 0] _) (frameW 0x01 [lo8 s.cfg.resY, hi8 s.cfg.resY, 0x00]) = _
    rw [e1, andThen_ok, e2]
  rw [Machine.configureBody, hr, e]
  dsimp only
  rw [andThen_ok, show (s.didRead 0x2E 10).cfg = s.cfg from rfl, eg, andThen_ok]
  show andThen (frameW 0x21 [lo8 (uc1Of s.cfg), hi8 (uc1Of s.cfg)] _) _ = _
  rw [e3, andThen_ok]
  show andThen (frameW 0x22 [Config.uc2Full] _) _ = _
  rw [e4, andThen_ok]
  show andThen (frameW 0x11 [packMode Config.demDefault] _) _ = _
  rw [e5, andThen_ok]
  exact e6

/-- The frames of `REFRESH`, when every transfer is `Ok`. -/
theorem refreshBody_ok {s : State} (h : transfersOk 5 s) :
    Machine.refreshBody s = (.ok, s.wroteAll refreshFrames) := by
  have h1 := transfersOk_wrote (op := 0x0C) (d := Config.booster) (n := 3) h
  have h2 := transfersOk_wrote (op := 0x22) (d := [Config.uc2Full]) (n := 1) h1
  rw [Machine.refreshBody, boosterBody, andThen_frameW (transfersOk_mono (by decide) h), updateCtrl2Body,
    andThen_frameW (transfersOk_mono (by decide) h1), masterActivationBody, frameW_ok (d := []) h2]
  rfl

/-- A waiting request goes on at its busy-wait. -/
theorem step_waiting {s : State} {q : Seq} (hc : s.cfg.wf = true) (hs : s.seq = some q)
    (hq : q.tag = tagInit ∨ q.tag = tagRefresh ∨ q.tag = tagBusyWait) : step s = .next (waitTurn q.tag s) := by
  simp only [step, hc, if_true, hs, resumeWait, hq]

/-- Frames that only move payloads never end in `AlignmentError`. -/
theorem frameW_status (op : Byte) (d : List Byte) (s : State) : (frameW op d s).1 ≠ .alignmentError := by
  rcases frameW_cases op d s with ⟨_, e⟩ | ⟨_, _, e⟩ | ⟨_, _, _, _, e⟩ <;> rw [e] <;> simp

theorem frameR_status (op : Byte) (k : Nat) (s : State) : (frameR op k s).1.1 ≠ .alignmentError := by
  rcases Nat.eq_zero_or_pos k with rfl | hk
  · rw [frameR_zero]; exact frameW_status op [] s
  · rcases frameR_cases op s hk with ⟨_, e⟩ | ⟨_, _, e⟩ | ⟨_, _, _, e⟩ <;> rw [e] <;> simp

theorem andThen_status {r : Status × State} {k : State → Status × State} {st : Status} (h1 : r.1 ≠ st)
    (h2 : ∀ t, (k t).1 ≠ st) : (andThen r k).1 ≠ st := by
  rcases andThen_cases r k with ⟨_, e⟩ | ⟨_, e⟩ <;> rw [e]
  · exact h2 _
  · exact h1

/-! ### The inversion of `exec` -/

/-- The horizontal resolution of a well-formed configuration is aligned (R8). -/
theorem Cfg.wf_resX {c : Cfg} (h : c.wf = true) : c.resX.toNat % 8 = 0 := by
  simp only [Cfg.wf, Bool.and_eq_true, beq_iff_eq] at h; exact h.1

/-- The instructions whose meaning is in the lifecycle file (R260 to R266). -/
def isLifecycle : Instr → Bool
  | .reset | .init | .refresh | .busyWait => true
  | _ => false

/-- An instruction outside the lifecycle file that gives a next state: the gate answered, or frames ran and their status is
the answer. -/
theorem exec_cases {i : Instr} {s t : State} (hi : isLifecycle i = false) (h : exec i s = .next t) :
    (isGated i = true ∧ s.lstate ≠ .idle ∧ t = s.answeredFail .sequenceError) ∨
    (∃ r : Status × State, Ran s r ∧ (isGated i = true → s.lstate = .idle) ∧
      (s.cfg.wf = true → r.1 = .alignmentError → canMisalign i = true) ∧ t = answerOf r) := by
  have gate : ∀ (g : Byte) (body : State → State) (r : Status × State), isGated i = true → Ran (start g s) r →
      (s.cfg.wf = true → r.1 = .alignmentError → canMisalign i = true) →
      body (start g s) = answerOf r → t = gated g body s →
      (isGated i = true ∧ s.lstate ≠ .idle ∧ t = s.answeredFail .sequenceError) ∨
      (∃ r : Status × State, Ran s r ∧ (isGated i = true → s.lstate = .idle) ∧
        (s.cfg.wf = true → r.1 = .alignmentError → canMisalign i = true) ∧ t = answerOf r) := by
    intro g body r hg hr ha hb ht
    by_cases hl : s.lstate = .idle
    · exact .inr ⟨r, hr.ofStart, fun _ => hl, ha, by rw [ht, gated_idle hl, hb]⟩
    · exact .inl ⟨hg, hl, by rw [ht, gated_not_idle hl]⟩
  have plain : ∀ r : Status × State, isGated i = false → Ran s r → r.1 ≠ .alignmentError → t = answerOf r →
      (isGated i = true ∧ s.lstate ≠ .idle ∧ t = s.answeredFail .sequenceError) ∨
      (∃ r : Status × State, Ran s r ∧ (isGated i = true → s.lstate = .idle) ∧
        (s.cfg.wf = true → r.1 = .alignmentError → canMisalign i = true) ∧ t = answerOf r) := by
    intro r hg hr ha ht
    exact .inr ⟨r, hr, fun h => absurd h (by simp [hg]), fun _ h => absurd h ha, ht⟩
  have nx : ∀ {u : State}, (Host.Outcome.next u : Host.Outcome State Fault Refusal) = .next t → t = u :=
    fun e => (Host.Outcome.next.inj e).symm
  cases i with
  | opGateScan r o => exact plain _ rfl (Ran.frameW _ _ s) (frameW_status _ _ _) (nx h)
  | opGateVoltage d => exact plain _ rfl (Ran.frameW _ _ s) (frameW_status _ _ _) (nx h)
  | opSourceVoltage d => exact plain _ rfl (Ran.frameW _ _ s) (frameW_status _ _ _) (nx h)
  | opBoosterSoftStart a b c d => exact plain _ rfl (Ran.frameW _ _ s) (frameW_status _ _ _) (nx h)
  | opGateScanStart r => exact plain _ rfl (Ran.frameW _ _ s) (frameW_status _ _ _) (nx h)
  | opDataEntryMode m => exact plain _ rfl (Ran.frameW _ _ s) (frameW_status _ _ _) (nx h)
  | opSwReset => exact plain _ rfl (Ran.frameW _ _ s) (frameW_status _ _ _) (nx h)
  | opTempSensorSelect b => exact plain _ rfl (Ran.frameW _ _ s) (frameW_status _ _ _) (nx h)
  | opTempRead => exact plain _ rfl ((Ran.frameR 0x1B 2 s).withBody _) (frameR_status _ _ _) (nx h)
  | opMasterActivation => exact plain _ rfl (Ran.frameW _ _ s) (frameW_status _ _ _) (nx h)
  | opUpdateControl1 u => exact plain _ rfl (Ran.frameW _ _ s) (frameW_status _ _ _) (nx h)
  | opUpdateControl2 b => exact plain _ rfl (Ran.frameW _ _ s) (frameW_status _ _ _) (nx h)
  | opWriteRamPrimary d => exact plain _ rfl (Ran.bulkWrite _ _ s) (frameW_status _ _ _) (nx h)
  | opWriteRamSecondary d => exact plain _ rfl (Ran.bulkWrite _ _ s) (frameW_status _ _ _) (nx h)
  | opReadRam n => exact plain _ rfl ((Ran.bulkRead n s).withBody _) (frameR_status _ _ _) (nx h)
  | opVcomVoltage d => exact plain _ rfl (Ran.frameW _ _ s) (frameW_status _ _ _) (nx h)
  | opReadUserId => exact plain _ rfl ((Ran.frameR 0x2E _ s).withBody _) (frameR_status _ _ _) (nx h)
  | opBorder b => exact plain _ rfl (Ran.frameW _ _ s) (frameW_status _ _ _) (nx h)
  | opRamReadBank b => exact plain _ rfl (Ran.frameW _ _ s) (frameW_status _ _ _) (nx h)
  | opRamXRange a b => exact plain _ rfl (Ran.frameXRange _ _ s) (frameW_status _ _ _) (nx h)
  | opRamYRange a b => exact plain _ rfl (Ran.frameYRange _ _ s) (frameW_status _ _ _) (nx h)
  | opPatternSecondary b => exact plain _ rfl (Ran.frameW _ _ s) (frameW_status _ _ _) (nx h)
  | opPatternPrimary b => exact plain _ rfl (Ran.frameW _ _ s) (frameW_status _ _ _) (nx h)
  | opRamXCounter x => exact plain _ rfl (Ran.frameXCounter _ s) (frameW_status _ _ _) (nx h)
  | opRamYCounter y => exact plain _ rfl (Ran.frameYCounter _ s) (frameW_status _ _ _) (nx h)
  | opNop => exact plain _ rfl (Ran.frameW _ _ s) (frameW_status _ _ _) (nx h)
  | send c d => exact plain _ rfl ((Ran.frameW c d _).ofShadow _).ofStart (frameW_status _ _ _) (nx h)
  | receive c k => exact plain _ rfl (((Ran.frameR c k _).ofShadow _).withBody _).ofStart (frameR_status _ _ _) (nx h)
  | gateScanRange a b =>
    exact gate _ _ _ rfl (Ran.gateScanBody a b _)
      (fun _ e => absurd e (andThen_status (frameW_status _ _ _) fun _ => frameW_status _ _ _)) rfl (nx h)
  | updateCtrl1 => exact gate _ _ _ rfl (Ran.frameW _ _ _) (fun _ e => absurd e (frameW_status _ _ _)) rfl (nx h)
  | updateCtrl2 => exact gate _ _ _ rfl (Ran.frameW _ _ _) (fun _ e => absurd e (frameW_status _ _ _)) rfl (nx h)
  | border c => exact gate _ _ _ rfl (Ran.frameW _ _ _) (fun _ e => absurd e (frameW_status _ _ _)) rfl (nx h)
  | patternFillPrimary a b c =>
    exact gate _ _ _ rfl (Ran.frameW _ _ _) (fun _ e => absurd e (frameW_status _ _ _)) rfl (nx h)
  | patternFillSecondary a b c =>
    exact gate _ _ _ rfl (Ran.frameW _ _ _) (fun _ e => absurd e (frameW_status _ _ _)) rfl (nx h)
  | dataEntryMode m => exact gate _ _ _ rfl (Ran.frameW _ _ _) (fun _ e => absurd e (frameW_status _ _ _)) rfl (nx h)
  | ramBankSelect b => exact gate _ _ _ rfl (Ran.frameW _ _ _) (fun _ e => absurd e (frameW_status _ _ _)) rfl (nx h)
  | selectTempSensor => exact gate _ _ _ rfl (Ran.frameW _ _ _) (fun _ e => absurd e (frameW_status _ _ _)) rfl (nx h)
  | readTemperature =>
    exact gate _ _ _ rfl ((Ran.frameR 0x1B 2 _).withBody _) (fun _ e => absurd e (frameR_status _ _ _)) rfl (nx h)
  | softwareReset => exact gate _ _ _ rfl (Ran.frameW _ _ _) (fun _ e => absurd e (frameW_status _ _ _)) rfl (nx h)
  | masterActivation => exact gate _ _ _ rfl (Ran.frameW _ _ _) (fun _ e => absurd e (frameW_status _ _ _)) rfl (nx h)
  | boosterSoftStart => exact gate _ _ _ rfl (Ran.frameW _ _ _) (fun _ e => absurd e (frameW_status _ _ _)) rfl (nx h)
  | readUserId =>
    exact gate _ _ _ rfl ((Ran.frameR 0x2E _ _).withBody _) (fun _ e => absurd e (frameR_status _ _ _)) rfl (nx h)
  | nop => exact gate _ _ _ rfl (Ran.frameW _ _ _) (fun _ e => absurd e (frameW_status _ _ _)) rfl (nx h)
  | setHRange l w => exact gate _ _ _ rfl (Ran.hRange _ _ _) (fun _ _ => rfl) rfl (nx h)
  | setVRange t' h' => exact gate _ _ _ rfl (Ran.vRange _ _ _) (fun _ e => absurd e (frameW_status _ _ _)) rfl (nx h)
  | setStartAddress x y => exact gate _ _ _ rfl (Ran.startAddr x y _) (fun _ _ => rfl) rfl (nx h)
  | resetFullRange =>
    refine gate _ _ _ rfl ((Ran.hRange 0 s.cfg.resX.toNat _).andThen fun u _ => Ran.vRange 0 s.cfg.resY.toNat u)
      (fun hc e => absurd e (andThen_status ?_ fun _ => frameW_status _ _ _)) rfl (nx h)
    rw [hRange_aligned (by decide) (Cfg.wf_resX hc)]
    exact frameW_status _ _ _
  | writeRegion l t' w h' p q =>
    have h := h
    simp only [exec, execWriteRegion] at h
    split at h
    · exact gate _ _ _ rfl (Ran.writeRegionBody l t' w h' p q _) (fun _ _ => rfl) rfl (nx h)
    · simp at h
  | readRegion l t' w h' a b => exact gate _ _ _ rfl (Ran.readRegionBody l t' w h' a b _) (fun _ _ => rfl) rfl (nx h)
  | reset => simp [isLifecycle] at hi
  | init => simp [isLifecycle] at hi
  | refresh => simp [isLifecycle] at hi
  | busyWait => simp [isLifecycle] at hi
  | printH l t' f str =>
    simp only [exec, execPrintH, printRequest] at h
    split at h
    · split at h
      · exact gate _ _ _ rfl ((Ran.printLoop 1 (originH l t' f) f str (0, 0) _).withBody _) (fun _ _ => rfl) rfl (nx h)
      · simp at h
    · simp at h
  | printV l t' f str =>
    simp only [exec, execPrintV, printRequest] at h
    split at h
    · split at h
      · exact gate _ _ _ rfl ((Ran.printLoop (-1) (originV l t' f) f str (0, 0) _).withBody _) (fun _ _ => rfl) rfl (nx h)
      · simp at h
    · simp at h

end Sys2Proof.Machine
end

