-- ==== Sys2Proof/Tests/Slice0.lean ====
section
/-! SUPPORT. The model's own tests: what the well-formedness check refuses, the words of every instruction written out
from R110, R119 and R127, one or two steps of each instruction with the outcome of spec/95_test_vectors.md (the vector is
named in the docstring), and for every obligation with hypotheses a state and operands that meet them all. -/

namespace Sys2Proof.Tests

open Sys2Proof.Machine

/-! ### Helpers -/

/-- A request frame with operand registers and no buffer. -/
def rf (tag : Byte) (a0 a1 a2 a3 : W16) : ReqFrame :=
  { tag := tag, a0 := a0, a1 := a1, a2 := a2, a3 := a3, p := none, s := none, n := 0, font := Font.blank }

/-- A write frame as the bus carries it. -/
def sent (c : Byte) (d : List Byte) : Item := .wire { cmd := c, body := .send d }

/-- A read frame as the bus carries it. -/
def read (c : Byte) (k : Nat) : Item := .wire { cmd := c, body := .recv k }

/-- An 8 by 8 font whose every glyph is the one of V68. -/
def font8 : Font := { gw := 8, gh := 8, table := List.replicate 256 [0x18, 0x24, 0x42, 0x7E, 0x42, 0x42, 0x42, 0x00] }

/-- The events of `W(c; d)` in configuration A, spelled out (R146). -/
def evW (c : Byte) (d : List Byte) : List Event :=
  [.cs .asserted, .dc .command, .tx 1000 [c] .ok, .dc .data, .tx 1000 d .ok, .cs .deasserted]

/-- The events of `W(c)` (R146). -/
def evC (c : Byte) : List Event :=
  [.cs .asserted, .dc .command, .tx 1000 [c] .ok, .dc .data, .cs .deasserted]

/-- The events of `R(c; k) -> r` (R146). -/
def evR (c : Byte) (r : List Byte) : List Event :=
  [.cs .asserted, .dc .command, .tx 1000 [c] .ok, .dc .data, .rx 1000 r.length .ok r, .cs .deasserted]

/-- Configuration A in `Idle`, with scripted answers; received bytes count up from 0xA0. -/
def bench (xfer : List TransportStatus) (busy : List Bool) : State :=
  { State.reset with
    lstate := .idle
    env := { Env.atReset with
      xfer := xfer, busy := busy
      bytes := [0xA0, 0xA1, 0xA2, 0xA3, 0xA4, 0xA5, 0xA6, 0xA7, 0xA8, 0xA9, 0xAA, 0xAB] } }

/-- Every transfer `Ok`, the busy line deasserted. -/
def ready : State := bench (List.replicate 40 .ok) [false, false]

/-- As `ready`, with valid shadows. -/
def shadowed : State :=
  { ready with sh := { xs := 1, xe := 2, ys := 3, ye := 4, cx := 5, cy := 6, hv := true, vv := true, cxv := true, cyv := true } }

/-- As `ready`, in `PoweredOff`. -/
def off : State := { ready with lstate := .poweredOff }

/-- As `ready`, with the reference peer attached in the mode `INIT` programs. -/
def withPeer : State :=
  { ready with
    env := { ready.env with refPeer := true }
    peer := { Peer.atReset with regs := { Peer.atReset.regs with dem := 3 } } }

/-- As `withPeer`, with a window of two known cells and the counter on the second. -/
def twoCells : State :=
  { withPeer with peer := { withPeer.peer with
      regs := { withPeer.peer.regs with xe := 1, cx := 1 }, ram := [(0, 0x5A), (1, 0x6B)] } }

/-- The second transfer fails. -/
def failing (s : State) : State := { s with env := { s.env with xfer := [.ok, .fail 1] } }

/-- The state after an instruction, where there is a next one. -/
def after (i : Instr) (s : State) : State :=
  match exec i s with
  | .next t => t
  | _ => s

/-- The events an instruction adds. -/
def events (i : Instr) (s : State) : List Event := (after i s).trace.map Prod.snd

/-- The shadow fields and their valid bits as one list of numbers. -/
def shadows (s : State) : List Nat :=
  [s.sh.xs.toNat, s.sh.xe.toNat, s.sh.ys.toNat, s.sh.ye.toNat, s.sh.cx.toNat, s.sh.cy.toNat] ++
    [s.sh.hv.toNat, s.sh.vv.toNat, s.sh.cxv.toNat, s.sh.cyv.toNat]

/-! ### What the well-formedness checks refuse -/

theorem test_wf_gate_scan_order : wellFormed Config.strapped (.opGateScan 296 1) = false := by decide
theorem test_wf_gate_voltage_length : wellFormed Config.strapped (.opGateVoltage []) = false := by decide
theorem test_wf_source_voltage_length : wellFormed Config.strapped (.opSourceVoltage [1, 2]) = false := by decide
theorem test_wf_booster_bytes : wellFormed Config.strapped (.opBoosterSoftStart 0x80 0x90 0x90 0x01) = false := by decide
theorem test_wf_data_entry_mode_reserved : wellFormed Config.strapped (.opDataEntryMode 0x08) = false := by decide
theorem test_wf_temp_sensor_byte : wellFormed Config.strapped (.opTempSensorSelect 0x48) = false := by decide
theorem test_wf_uc1_reserved : wellFormed Config.strapped (.opUpdateControl1 0x0001) = false := by decide
theorem test_wf_uc2_byte : wellFormed Config.strapped (.opUpdateControl2 0xC7) = false := by decide
theorem test_wf_vcom_voltage_length : wellFormed Config.strapped (.opVcomVoltage []) = false := by decide
theorem test_wf_border_transition : wellFormed Config.strapped (.opBorder 0x01) = false := by decide
theorem test_wf_read_bank_reserved : wellFormed Config.strapped (.opRamReadBank 0x02) = false := by decide
theorem test_wf_pattern_secondary_reserved : wellFormed Config.strapped (.opPatternSecondary 0x80) = false := by decide
theorem test_wf_pattern_primary_reserved : wellFormed Config.strapped (.opPatternPrimary 0x08) = false := by decide
theorem test_wf_write_region_primary_length : wellFormed Config.strapped (.writeRegion 0 0 8 2 (some [0xF0]) none) = false := by decide
theorem test_wf_write_region_secondary_length : wellFormed Config.strapped (.writeRegion 0 0 8 2 none (some [1, 2, 3])) = false := by decide
theorem test_wf_print_h_glyph_table : wellFormed Config.strapped (.printH 0 0 { font8 with table := [] } []) = false := by decide +kernel
theorem test_wf_print_v_glyph_size : wellFormed Config.strapped (.printV 0 0 { font8 with gh := 7 } []) = false := by decide +kernel
theorem test_wf_print_h_no_text_unit : wellFormed { Config.strapped with hasText := false } (.printH 0 0 font8 []) = false := by
  decide
theorem test_wf_print_v_no_text_unit : wellFormed { Config.strapped with hasText := false } (.printV 0 0 font8 []) = false := by
  decide
theorem test_wf_accepts_init_mode : wellFormed Config.strapped (.opDataEntryMode 0x03) = true := by decide
theorem test_wf_config_width : Cfg.wf { Config.strapped with resX := 130 } = false := by decide
theorem test_wf_config_depth : Cfg.wf { Config.strapped with depth := 3 } = false := by decide

/-! ### The words of every instruction (R110, R119, R127) -/

theorem test_decode_op_gate_scan : decode (sent 0x01 [0x28, 0x01, 0x00]) = .ok (.opGateScan 296 0) := by decide
theorem test_decode_op_gate_voltage : decode (sent 0x03 [0x17]) = .ok (.opGateVoltage [0x17]) := by decide
theorem test_decode_op_source_voltage : decode (sent 0x04 [0x41]) = .ok (.opSourceVoltage [0x41]) := by decide
theorem test_decode_op_booster_soft_start : decode (sent 0x0C [0x80, 0x90, 0x90, 0x00]) = .ok (.opBoosterSoftStart 0x80 0x90 0x90 0x00) := by
  decide
theorem test_decode_op_gate_scan_start : decode (sent 0x0F [0x05, 0x01]) = .ok (.opGateScanStart 0x0105) := by decide
theorem test_decode_op_data_entry_mode : decode (sent 0x11 [0x03]) = .ok (.opDataEntryMode 3) := by decide
theorem test_decode_op_sw_reset : decode (sent 0x12 []) = .ok (.opSwReset) := by decide
theorem test_decode_op_temp_sensor_select : decode (sent 0x18 [0x80]) = .ok (.opTempSensorSelect 0x80) := by decide
theorem test_decode_op_temp_read : decode (read 0x1B 2) = .ok (.opTempRead) := by decide
theorem test_decode_op_master_activation : decode (sent 0x20 []) = .ok (.opMasterActivation) := by decide
theorem test_decode_op_update_control1 : decode (sent 0x21 [0x40, 0x80]) = .ok (.opUpdateControl1 0x8040) := by decide
theorem test_decode_op_update_control2 : decode (sent 0x22 [0xF7]) = .ok (.opUpdateControl2 0xF7) := by decide
theorem test_decode_op_write_ram_primary : decode (sent 0x24 [0xF0, 0x0F]) = .ok (.opWriteRamPrimary [0xF0, 0x0F]) := by
  decide
theorem test_decode_op_write_ram_secondary : decode (sent 0x26 [0x00]) = .ok (.opWriteRamSecondary [0x00]) := by decide
theorem test_decode_op_read_ram : decode (read 0x27 8) = .ok (.opReadRam 6) := by decide
theorem test_decode_op_vcom_voltage : decode (sent 0x2C [0x26]) = .ok (.opVcomVoltage [0x26]) := by decide
theorem test_decode_op_read_user_id : decode (read 0x2E 10) = .ok (.opReadUserId) := by decide
theorem test_decode_op_border : decode (sent 0x3C [0x05]) = .ok (.opBorder 5) := by decide
theorem test_decode_op_ram_read_bank : decode (sent 0x41 [0x01]) = .ok (.opRamReadBank 1) := by decide
theorem test_decode_op_ram_x_range : decode (sent 0x44 [0x01, 0x02]) = .ok (.opRamXRange 1 2) := by decide
theorem test_decode_op_ram_y_range : decode (sent 0x45 [0x0A, 0x00, 0x1D, 0x01]) = .ok (.opRamYRange 10 0x011D) := by
  decide
theorem test_decode_op_pattern_secondary : decode (sent 0x46 [0x41]) = .ok (.opPatternSecondary 0x41) := by decide
theorem test_decode_op_pattern_primary : decode (sent 0x47 [0x81]) = .ok (.opPatternPrimary 0x81) := by decide
theorem test_decode_op_ram_x_counter : decode (sent 0x4E [0x02]) = .ok (.opRamXCounter 2) := by decide
theorem test_decode_op_ram_y_counter : decode (sent 0x4F [0x27, 0x01]) = .ok (.opRamYCounter 295) := by decide
theorem test_decode_op_nop : decode (sent 0x7F []) = .ok (.opNop) := by decide
theorem test_decode_send : decode (.request { rf 0x00 0x003C 0 0 0 with p := some [0x05] }) = .ok (.send 0x3C [0x05]) := by
  decide
theorem test_decode_receive : decode (.request { rf 0x01 0x002E 0 0 0 with n := 10 }) = .ok (.receive 0x2E 10) := by
  decide
theorem test_decode_gate_scan_range : decode (.request (rf 0x02 5 0x1234 0 0)) = .ok (.gateScanRange 5 0x1234) := by
  decide
theorem test_decode_update_ctrl1 : decode (.request (rf 0x03 0 0 0 0)) = .ok (.updateCtrl1) := by decide
theorem test_decode_update_ctrl2 : decode (.request (rf 0x04 0 0 0 0)) = .ok (.updateCtrl2) := by decide
theorem test_decode_border : decode (.request (rf 0x05 0x0007 0 0 0)) = .ok (.border .alternateRed) := by decide
theorem test_decode_pattern_fill_primary : decode (.request (rf 0x06 2 3 1 0)) = .ok (.patternFillPrimary 2 3 .white) := by
  decide
theorem test_decode_pattern_fill_secondary : decode (.request (rf 0x07 1 0 3 0)) = .ok (.patternFillSecondary 1 0 .alternateRed) := by
  decide
theorem test_decode_data_entry_mode : decode (.request (rf 0x08 7 0 0 0)) = .ok (.dataEntryMode 7) := by decide
theorem test_decode_ram_bank_select : decode (.request (rf 0x09 1 0 0 0)) = .ok (.ramBankSelect .red) := by decide
theorem test_decode_select_temp_sensor : decode (.request (rf 0x0A 0 0 0 0)) = .ok (.selectTempSensor) := by decide
theorem test_decode_read_temperature : decode (.request (rf 0x0B 0 0 0 0)) = .ok (.readTemperature) := by decide
theorem test_decode_software_reset : decode (.request (rf 0x0C 0 0 0 0)) = .ok (.softwareReset) := by decide
theorem test_decode_master_activation : decode (.request (rf 0x0D 0 0 0 0)) = .ok (.masterActivation) := by decide
theorem test_decode_booster_soft_start : decode (.request (rf 0x0E 0 0 0 0)) = .ok (.boosterSoftStart) := by decide
theorem test_decode_read_user_id : decode (.request (rf 0x0F 0 0 0 0)) = .ok (.readUserId) := by decide
theorem test_decode_nop : decode (.request (rf 0x10 0 0 0 0)) = .ok (.nop) := by decide
theorem test_decode_set_h_range : decode (.request (rf 0x11 8 0 16 0)) = .ok (.setHRange 8 16) := by decide
theorem test_decode_set_v_range : decode (.request (rf 0x12 0 10 0 20)) = .ok (.setVRange 10 20) := by decide
theorem test_decode_set_start_address : decode (.request (rf 0x13 16 10 0 0)) = .ok (.setStartAddress 16 10) := by
  decide
theorem test_decode_reset_full_range : decode (.request (rf 0x14 0 0 0 0)) = .ok (.resetFullRange) := by decide
theorem test_decode_write_region : decode (.request { rf 0x15 8 1 8 2 with p := some [0xA5, 0x5A] }) = .ok (.writeRegion 8 1 8 2 (some [0xA5, 0x5A]) none) := by
  decide
theorem test_decode_read_region : decode (.request { rf 0x16 8 1 8 2 with s := some [0] }) = .ok (.readRegion 8 1 8 2 false true) := by
  decide
theorem test_decode_reset : decode (.request (rf 0x17 0 0 0 0)) = .ok (.reset) := by decide
theorem test_decode_init : decode (.request (rf 0x18 0 0 0 0)) = .ok (.init) := by decide
theorem test_decode_refresh : decode (.request (rf 0x19 0 0 0 0)) = .ok (.refresh) := by decide
theorem test_decode_busy_wait : decode (.request (rf 0x1A 0 0 0 0)) = .ok (.busyWait) := by decide
theorem test_decode_print_h : decode (.request { rf 0x1B 8 9 0 0 with p := some [0x48, 0x69] }) = .ok (.printH 8 9 Font.blank [0x48, 0x69]) := by
  rfl
theorem test_decode_print_v : decode (.request { rf 0x1C 8 9 0 0 with p := some [0x48] }) = .ok (.printV 8 9 Font.blank [0x48]) := by
  rfl

theorem test_decode_unassigned_opcode : decode (sent 0xEE [1]) = .error (.unassignedOpcode 0xEE) := by decide
theorem test_decode_unknown_tag : decode (.request (rf 0x1D 0 0 0 0)) = .error (.unknownTag 0x1D) := by decide
theorem test_decode_wrong_payload : decode (sent 0x44 [1]) = .error (.payload 0x44) := by decide
theorem test_decode_empty_frame : decodeWireBytes [] = .error .emptyFrame := by decide
theorem test_table_word_wire : decodeTableWord 8 0x20 = some .opMasterActivation := by decide
theorem test_table_word_request : decodeTableWord 40 0x0000000705 = some (.border .alternateRed) := by decide

/-! ### One step of each instruction -/

/-- R180 with V11. -/
theorem test_op_gate_scan : events (.opGateScan 296 0) ready = evW 0x01 [0x28, 0x01, 0x00] := by
  decide
/-- R181. -/
theorem test_op_gate_voltage : events (.opGateVoltage [0x17]) ready = evW 0x03 [0x17] := by
  decide
/-- R182. -/
theorem test_op_source_voltage : events (.opSourceVoltage [0x41]) ready = evW 0x04 [0x41] := by
  decide
/-- R183. -/
theorem test_op_booster_soft_start : events (.opBoosterSoftStart 0x80 0x90 0x90 0x00) ready = evW 0x0C [0x80, 0x90, 0x90, 0x00] := by
  decide
/-- R184. -/
theorem test_op_gate_scan_start : events (.opGateScanStart 5) ready = evW 0x0F [0x05, 0x00] := by
  decide
/-- R185, R94: the peer's mode. -/
theorem test_op_data_entry_mode : (after (.opDataEntryMode 5) withPeer).peer.regs.dem = 5 := by
  decide
/-- R186, R98: the peer is busy after it. -/
theorem test_op_sw_reset : events .opSwReset withPeer = evC 0x12 ∧ (after .opSwReset withPeer).peer.busy = true := by
  decide
/-- R187. -/
theorem test_op_temp_sensor_select : events (.opTempSensorSelect 0x80) ready = evW 0x18 [0x80] := by
  decide
/-- R188, V31: bytes A0 A1, first high. -/
theorem test_op_temp_read : (after .opTempRead ready).rsp.body.value = 0xA0A ∧ events .opTempRead ready = evR 0x1B [0xA0, 0xA1] := by
  decide
/-- R189, R98. -/
theorem test_op_master_activation : events .opMasterActivation withPeer = evC 0x20 ∧ (after .opMasterActivation withPeer).peer.busy = true := by
  decide
/-- R190. -/
theorem test_op_update_control_1 : events (.opUpdateControl1 0x8040) ready = evW 0x21 [0x40, 0x80] := by
  decide
/-- R191. -/
theorem test_op_update_control_2 : events (.opUpdateControl2 0xF7) ready = evW 0x22 [0xF7] := by
  decide
/-- R192, R43, R95: the byte, and the counter shadows invalid. -/
theorem test_op_write_ram_primary : ramRead (after (.opWriteRamPrimary [0x5A]) withPeer).peer.ram 0 = some 0x5A ∧
    shadows (after (.opWriteRamPrimary [0x5A]) shadowed) = [1, 2, 3, 4, 5, 6, 1, 1, 0, 0] := by
  decide
/-- R193, R61: the other plane. -/
theorem test_op_write_ram_secondary : ramRead (after (.opWriteRamSecondary [0x5A]) withPeer).peer.ram (2 ^ 24) = some 0x5A := by
  decide
/-- R194, S8: two dummy bytes dropped. -/
theorem test_op_read_ram : (after (.opReadRam 2) ready).rsp.body.data = [0xA2, 0xA3] ∧
    events (.opReadRam 2) ready = evR 0x27 [0xA0, 0xA1, 0xA2, 0xA3] := by
  decide
/-- R195. -/
theorem test_op_vcom_voltage : events (.opVcomVoltage [0x26]) ready = evW 0x2C [0x26] := by
  decide
/-- R196. -/
theorem test_op_read_user_id : (after .opReadUserId ready).rsp.body.data = [0xA0, 0xA1, 0xA2, 0xA3, 0xA4, 0xA5, 0xA6, 0xA7, 0xA8, 0xA9] := by
  decide
/-- R197. -/
theorem test_op_border : events (.opBorder 5) ready = evW 0x3C [0x05] := by
  decide
/-- R198, R94. -/
theorem test_op_ram_read_bank : (after (.opRamReadBank 1) withPeer).peer.regs.bank = .red := by
  decide
/-- R199, R42. -/
theorem test_op_ram_x_range : shadows (after (.opRamXRange 7 9) ready) = [7, 9, 0, 0, 0, 0, 1, 0, 0, 0] ∧
    events (.opRamXRange 7 9) ready = evW 0x44 [7, 9] := by
  decide
/-- R200, R42. -/
theorem test_op_ram_y_range : shadows (after (.opRamYRange 0x0102 0x0304) ready) = [0, 0, 0x0102, 0x0304, 0, 0, 0, 1, 0, 0] ∧
    events (.opRamYRange 0x0102 0x0304) ready = evW 0x45 [2, 1, 4, 3] := by
  decide
/-- R201, V21. -/
theorem test_op_pattern_secondary : events (.opPatternSecondary 0x41) ready = evW 0x46 [0x41] := by
  decide
/-- R202, V20. -/
theorem test_op_pattern_primary : events (.opPatternPrimary 0x81) ready = evW 0x47 [0x81] := by
  decide
/-- R203, R42, R94. -/
theorem test_op_ram_x_counter : shadows (after (.opRamXCounter 7) ready) = [0, 0, 0, 0, 7, 0, 0, 0, 1, 0] ∧
    (after (.opRamXCounter 7) withPeer).peer.regs.cx = 7 := by
  decide
/-- R204, R42, R94. -/
theorem test_op_ram_y_counter : shadows (after (.opRamYCounter 0x127) ready) = [0, 0, 0, 0, 0, 0x127, 0, 0, 0, 1] ∧
    (after (.opRamYCounter 0x127) withPeer).peer.regs.cy = 0x127 := by
  decide
/-- R205. -/
theorem test_op_nop : events (.opNop) ready = evC 0x7F := by
  decide
/-- V2, R44: the frame, and every shadow invalid. -/
theorem test_send : events (.send 0x3C [0x05]) shadowed = evW 0x3C [0x05] ∧
    shadows (after (.send 0x3C [0x05]) shadowed) = [1, 2, 3, 4, 5, 6, 0, 0, 0, 0] := by
  decide
/-- V4: the status, and the lines restored. -/
theorem test_send_payload_fails : (after (.send 0x24 [0xAA, 0x55]) (bench [.ok, .fail 9] [])).rsp.status = .transportError 9 ∧
    (after (.send 0x24 [0xAA, 0x55]) (bench [.ok, .fail 9] [])).line = Lines.idle := by
  decide
/-- R81, G6: a pattern fill makes the peer busy. -/
theorem test_op_pattern_primary_busy : (after (.opPatternPrimary 0x81) withPeer).peer.busy = true := by
  decide
/-- R81, G6, log 12: busy, the bytes of the secondary plane unknown, the primary kept. -/
theorem test_op_pattern_secondary_busy : (after (.opPatternSecondary 0x41) twoCells).peer.busy = true ∧
    ramRead (after (.opPatternSecondary 0x41) twoCells).peer.ram 0 = some 0x5A := by
  decide
/-- R301, U10: the cell of the failing byte is unknown, the one drawn before it is kept. -/
theorem test_op_write_ram_primary_fails : ramRead (after (.opWriteRamPrimary [0x77]) (failing twoCells)).peer.ram 0 = some 0x5A ∧
    ramRead (after (.opWriteRamPrimary [0x77]) (failing twoCells)).peer.ram 1 = none := by
  decide
/-- R93, R97: two reads of one cell nothing has written agree. -/
theorem test_op_read_ram_twice : (after (.opReadRam 1) ready).rsp.body.data = [0xA2] ∧
    (after (.opReadRam 1) (after (.opReadRam 1) withPeer)).rsp.body.data = [0xA2] := by
  decide
/-- V6. -/
theorem test_receive : (after (.receive 0x2E 10) ready).rsp.body.data = [0xA0, 0xA1, 0xA2, 0xA3, 0xA4, 0xA5, 0xA6, 0xA7, 0xA8, 0xA9] := by
  decide
/-- V7. -/
theorem test_receive_none : events (.receive 0x1B 0) ready = evC 0x1B ∧ (after (.receive 0x1B 0) ready).rsp.body.data = [] := by
  decide
/-- V11a. -/
theorem test_gate_scan_range : events (.gateScanRange 5 0x1234) ready = evW 0x0F [0x05, 0x00] ++ evW 0x01 [0x34, 0x12, 0x00] := by
  decide
/-- V11b: the second frame is not sent. -/
theorem test_gate_scan_range_fails : events (.gateScanRange 0 296) (bench [.ok, .fail 1] []) =
    [.cs .asserted, .dc .command, .tx 1000 [0x0F] .ok, .dc .data, .tx 1000 [0, 0] (.fail 1), .cs .deasserted] := by
  decide
/-- V12. -/
theorem test_update_ctrl1 : events (.updateCtrl1) ready = evW 0x21 [0x40, 0x00] := by
  decide
/-- V15. -/
theorem test_update_ctrl1_narrow : events .updateCtrl1 { ready with cfg := { Config.strapped with depth := 2, scan := .narrowScan } } =
    evW 0x21 [0x00, 0x80] := by
  decide
/-- V16. -/
theorem test_update_ctrl2 : events (.updateCtrl2) ready = evW 0x22 [0xF7] := by
  decide
/-- V18. -/
theorem test_border : events (.border .red) ready = evW 0x3C [0x06] := by
  decide
/-- V23. -/
theorem test_pattern_fill_primary : events (.patternFillPrimary 2 3 .white) ready = evW 0x47 [0xB2] := by
  decide
/-- V25. -/
theorem test_pattern_fill_primary_solid : events (.patternFillPrimary 6 6 .red) ready = evW 0x47 [0x66] := by
  decide
/-- V26. -/
theorem test_pattern_fill_secondary : events (.patternFillSecondary 0 1 .red) ready = evW 0x46 [0x50] := by
  decide
/-- V24. -/
theorem test_pattern_fill_secondary_shared : events (.patternFillSecondary 5 4 .red) ready = evW 0x46 [0x45] := by
  decide
/-- V27. -/
theorem test_data_entry_mode : events (.dataEntryMode 7) ready = evW 0x11 [0x07] := by
  decide
/-- V28. -/
theorem test_ram_bank_select : events (.ramBankSelect .red) ready = evW 0x41 [0x01] := by
  decide
/-- V29. -/
theorem test_select_temp_sensor : events (.selectTempSensor) ready = evW 0x18 [0x80] := by
  decide
/-- V31, the first byte high. -/
theorem test_read_temperature : (after .readTemperature { ready with env := { ready.env with bytes := [0x12, 0x34] } }).rsp.body.value = 291 := by
  decide
/-- V31, the first byte low. -/
theorem test_read_temperature_low_first : (after .readTemperature { ready with
    cfg := { Config.strapped with tempFirstByteIsHigh := false }
    env := { ready.env with bytes := [0x12, 0x34] } }).rsp.body.value = 833 := by
  decide
/-- V33. -/
theorem test_software_reset : events .softwareReset ready = evC 0x12 ∧ (after .softwareReset ready).lstate = .idle := by
  decide
/-- V33. -/
theorem test_master_activation : events .masterActivation ready = evC 0x20 ∧ (after .masterActivation ready).lstate = .idle := by
  decide
/-- V34. -/
theorem test_booster_soft_start : events (.boosterSoftStart) ready = evW 0x0C [0x80, 0x90, 0x90, 0x00] := by
  decide
/-- V35. -/
theorem test_read_user_id : (after .readUserId ready).rsp.body.data.length = 10 := by
  decide
/-- V33. -/
theorem test_nop : events (.nop) ready = evC 0x7F := by
  decide
/-- V36: outside `Idle`. -/
theorem test_nop_off : events .nop off = [] ∧ (after .nop off).rsp.status = .sequenceError := by
  decide
/-- S1. -/
theorem test_set_h_range : events (.setHRange 8 16) ready = evW 0x44 [0x01, 0x02] := by
  decide
/-- V69, V70: the gate before the alignment, the alignment before the frames. -/
theorem test_set_h_range_order_of_checks : (after (.setHRange 3 8) off).rsp.status = .sequenceError ∧
    (after (.setHRange 3 8) (bench [.fail 1] [])).rsp.status = .alignmentError := by
  decide
/-- V38: a height of zero. -/
theorem test_set_v_range : events (.setVRange 0 0) ready = evW 0x45 [0x00, 0x00, 0xFF, 0xFF] := by
  decide
/-- V39a. -/
theorem test_set_v_range_wraps : events (.setVRange 65535 2) ready = evW 0x45 [0xFF, 0xFF, 0x00, 0x00] := by
  decide
/-- V40. -/
theorem test_set_start_address : events (.setStartAddress 16 10) ready = evW 0x4E [0x02] ++ evW 0x4F [0x0A, 0x00] ∧
    shadows (after (.setStartAddress 16 10) ready) = [0, 0, 0, 0, 2, 10, 0, 0, 1, 1] := by
  decide
/-- V40d. -/
theorem test_set_start_address_fails : (after (.setStartAddress 16 10) (bench [.fail 6] [])).sh.cxv = false ∧
    (after (.setStartAddress 16 10) (bench [.fail 6] [])).rsp.status = .transportError 6 := by
  decide
/-- V41. -/
theorem test_reset_full_range : events (.resetFullRange) ready = evW 0x44 [0x00, 0x0F] ++ evW 0x45 [0x00, 0x00, 0x27, 0x01] := by
  decide
/-- V43. -/
theorem test_write_region : events (.writeRegion 0 0 8 2 (some [0xF0, 0x0F]) (some [0x00, 0xFF])) ready = 
    evW 0x44 [0, 0] ++ evW 0x45 [0, 0, 1, 0] ++ evW 0x4E [0] ++ evW 0x4F [0, 0] ++ evW 0x24 [0xF0, 0x0F] ++
      evW 0x4E [0] ++ evW 0x4F [0, 0] ++ evW 0x26 [0x00, 0xFF] := by
  decide
/-- V42. -/
theorem test_write_region_shadows : shadows (after (.writeRegion 8 2 16 3 (some [1, 2, 3, 4, 5, 6]) none) ready) = [1, 2, 2, 4, 1, 2, 1, 1, 0, 0] := by
  decide
/-- V44 with the bytes of the environment. -/
theorem test_read_region : (after (.readRegion 8 2 16 3 true false) ready).rsp.body.p = [0xA2, 0xA3, 0xA4, 0xA5, 0xA6, 0xA7] ∧
    events (.readRegion 8 2 16 3 true false) ready =
      evW 0x44 [1, 2] ++ evW 0x45 [2, 0, 4, 0] ++ evW 0x41 [0] ++ evW 0x4E [1] ++ evW 0x4F [2, 0] ++
      evR 0x27 [0xA0, 0xA1, 0xA2, 0xA3, 0xA4, 0xA5, 0xA6, 0xA7] := by
  decide
/-- P2, S4: the reference peer returns what was written. -/
theorem test_read_region_round_trip : (after (.readRegion 8 1 8 2 true false) (after (.writeRegion 8 1 8 2 (some [0xA5, 0x5A]) none) withPeer)).rsp.body.p =
    [0xA5, 0x5A] := by
  decide
/-- V48. -/
theorem test_reset : events .reset ready = [.rst .low, .delay 2, .rst .high, .delay 10] ∧ (after .reset ready).lstate = .poweredOff := by
  decide
/-- V51 in configuration A. -/
theorem test_init : events .init (bench (List.replicate 15 .ok) [false]) =
    [.rst .low, .delay 2, .rst .high, .delay 10] ++ evC 0x12 ++ [.busy false] ++
    evR 0x2E [0xA0, 0xA1, 0xA2, 0xA3, 0xA4, 0xA5, 0xA6, 0xA7, 0xA8, 0xA9] ++ evW 0x0F [0, 0] ++
    evW 0x01 [0x28, 0x01, 0x00] ++ evW 0x21 [0x40, 0x00] ++ evW 0x22 [0xF7] ++ evW 0x11 [0x03] ++ evW 0x18 [0x80] := by
  decide
/-- V52: no busy poll. -/
theorem test_init_fails : events .init (bench [.fail 8] []) =
    [.rst .low, .delay 2, .rst .high, .delay 10, .cs .asserted, .dc .command, .tx 1000 [0x12] (.fail 8), .dc .data,
      .cs .deasserted] ∧ (after .init (bench [.fail 8] [])).lstate = .poweredOff := by
  decide
/-- V54 with the line ready at once. -/
theorem test_refresh : events .refresh ready =
    evW 0x0C [0x80, 0x90, 0x90, 0x00] ++ evW 0x22 [0xF7] ++ evC 0x20 ++ [.busy false] ∧ (after .refresh ready).lstate = .idle := by
  decide
/-- V57: the first turn of a busy-wait that has not ended. -/
theorem test_refresh_waits : (after .refresh (bench (List.replicate 5 .ok) [true])).lstate = .updating ∧
    (after .refresh (bench (List.replicate 5 .ok) [true])).seq = some { tag := 0x19, index := 19 } := by
  decide
/-- V49. -/
theorem test_busy_wait : events .busyWait off = [.busy false] ∧ (after .busyWait off).rsp.status = .ok := by
  decide
/-- V49b. -/
theorem test_busy_wait_waits : events .busyWait (bench [] [true]) = [.busy true, .delay 2] := by
  decide
/-- S5: a backspace on column 0, then one cell. -/
theorem test_print_h : events (.printH 0 0 font8 [0x08, 0x41]) ready =
    evW 0x44 [0, 0] ++ evW 0x45 [0, 0, 7, 0] ++ evW 0x4E [0] ++ evW 0x4F [0, 0] ++
    evW 0x24 [0xE7, 0xDB, 0xBD, 0x81, 0xBD, 0xBD, 0xBD, 0xFF] ∧ (after (.printH 0 0 font8 [0x08, 0x41]) ready).rsp.body.col = 1 := by
  decide +kernel
/-- V61: no cell, the final cursor. -/
theorem test_print_h_controls : events (.printH 0 0 font8 [9, 9, 8, 13, 10]) ready = [] ∧
    (after (.printH 0 0 font8 [9, 9, 8, 13, 10]) ready).rsp.body.row = 1 := by
  decide +kernel
/-- V65: the line-feed goes up, and the row moves the cell to the left. -/
theorem test_print_v : (after (.printV 16 0 font8 [0x0A, 0x43]) ready).rsp.body.row = -1 ∧
    (events (.printV 16 0 font8 [0x0A, 0x43]) ready).take 6 = evW 0x44 [0x01, 0x01] := by
  decide +kernel
/-- R299. -/
theorem test_print_v_misaligned : (after (.printV 4 0 font8 [0x41]) ready).rsp.status = .alignmentError := by
  decide +kernel

/-! ### Encodings and the peer -/

/-- The table of R229. -/
theorem test_horizontal_table :
    [(0, 128), (0, 8), (8, 16), (120, 8), (168, 8), (0, 2048), (0, 0), (2040, 16), (65528, 8)].map
      (fun r : Nat × Nat => (xsField r.1, xeField r.1 r.2)) =
    [(0x00, 0x0F), (0x00, 0x00), (0x01, 0x02), (0x0F, 0x0F), (0x15, 0x15), (0x00, 0xFF), (0x00, 0xFF), (0xFF, 0x00),
      (0xFF, 0xFF)] := by decide

theorem test_unpack_x_degenerate : unpackXRange 5 4 = (5, 4, none) := by decide
theorem test_unpack_y_degenerate : unpackYRange 0 0 0xFF 0xFF = (0, 0xFFFF, some (0, 65536)) := by decide

/-- Log 11: a payload, or a read, that does not fit its opcode leaves everything about the peer unspecified, however the
frame ends; so does a bulk frame with the counter outside the window, with or without a byte. -/
theorem test_peer_misfits : withPeer.peer.accept 0x01 [1] = withPeer.peer.forgetAll ∧
    withPeer.peer.touch 0x44 [1, 2, 3] = withPeer.peer.forgetAll ∧
    (withPeer.peer.supply 0x44 [9]).2 = withPeer.peer.forgetAll ∧ withPeer.peer.touchRead 0x44 1 = withPeer.peer.forgetAll ∧
    ({ withPeer.peer with regs := { withPeer.peer.regs with cx := 1 } } : Peer).accept 0x24 [] =
      ({ withPeer.peer with regs := { withPeer.peer.regs with cx := 1 } } : Peer).forgetAll := ⟨rfl, rfl, rfl, rfl, rfl⟩

/-! ### Reset and the step -/

theorem test_reset_lstate : State.reset.lstate = .poweredOff := rfl
theorem test_reset_waits : step State.reset = .next State.reset := rfl
theorem test_reset_memory : Memory.wf State.reset.peer.ram := by decide
theorem test_step_runs_word : step (State.reset.withFetchWord 8 0x17) =
    exec .reset { State.reset with req := ReqFrame.blank 0x17 } := rfl

/-! ### A witness for the hypotheses of every obligation that has some -/

/-- The next transfers of `ready`, and of any state with its environment's script, are `Ok`. -/
theorem ok_of_ready {n : Nat} {s : State} (h : n ≤ 40) (he : s.env.xfer = List.replicate 40 .ok) (hp : s.env.xferPos = 0) :
    transfersOk n s := by
  intro k hk
  have : k < 40 := by omega
  simp [Env.transfer, he, hp, this, -List.reduceReplicate]

theorem ready_ok {n : Nat} (h : n ≤ 40) : transfersOk n ready := ok_of_ready h rfl rfl

/-- A state in the middle of a busy-wait whose line reads asserted twice and then deasserted. -/
def waiting (tag : Byte) (l : LState) : State :=
  { bench (List.replicate 14 .ok) [true, true, false] with lstate := l, seq := some { tag := tag, index := 5 } }

theorem waiting_busy (tag : Byte) (l : LState) : busyFor 2 (waiting tag l) := by
  refine ⟨fun h => by simp [waiting, bench, Env.atReset] at h, fun k hk => ?_⟩
  match k, hk with
  | 0, _ => rfl
  | 1, _ => rfl

theorem waiting_ready (tag : Byte) (l : LState) : busyThenReady 2 (waiting tag l) := ⟨waiting_busy tag l, rfl⟩

theorem waiting_ok (tag : Byte) (l : LState) : transfersOk 14 (waiting tag l) := by
  intro k hk
  simp [waiting, bench, Env.transfer, Env.atReset, hk, -List.reduceReplicate]

theorem witness_engine_reset : Cfg.wf Config.strapped = true := by decide

theorem witness_step_runs_decoded_item_request :
    let s := { ready with port := [.request (rf 0x05 3 0 0 0)] }
    s.cfg.wf = true ∧ s.seq = none ∧ s.port = .request (rf 0x05 3 0 0 0) :: [] ∧
      decode (.request (rf 0x05 3 0 0 0)) = .ok (.border .alternateRed) := ⟨by decide, rfl, rfl, rfl⟩

theorem witness_step_runs_decoded_item_wire :
    let s := { ready with port := [sent 0x44 [1, 2]] }
    s.cfg.wf = true ∧ s.seq = none ∧ s.port = sent 0x44 [1, 2] :: [] ∧
      decode (sent 0x44 [1, 2]) = .ok (.opRamXRange 1 2) := ⟨by decide, rfl, rfl, rfl⟩

theorem witness_step_stops :
    Cfg.wf { Config.strapped with depth := 0 } = false ∧ Cfg.wf ready.cfg = true ∧ ready.seq = none ∧ ready.port = [] ∧
      0x1C < (rf 0x1D 0 0 0 0).tag.toNat ∧ (0x02 : Byte) ∉ assignedOpcodes := by decide

theorem witness_encode_decode_wire : decode (sent 0x45 [1, 2, 3, 4]) = .ok (.opRamYRange 0x0201 0x0403) := by decide

theorem witness_window_unpacks_x : (2040 : W16).toNat % 8 = 0 ∧ (8 : W16).toNat % 8 = 0 ∧ 8 ≤ (8 : W16).toNat ∧
    (2040 : W16).toNat + (8 : W16).toNat ≤ 2048 := by decide

theorem witness_window_unpacks_y : 1 ≤ (1 : W16).toNat ∧ (65535 : W16).toNat + (1 : W16).toNat ≤ 65536 := by decide

theorem witness_wire_plain_results : transfersOk 1 ready ∧ transfersOk 2 ready ∧ transfersOk (transfersOf []) ready ∧
    transfersOk (transfersOf [0x17, 0x18]) ready :=
  ⟨ready_ok (by decide), ready_ok (by decide), ready_ok (by decide), ready_ok (by decide)⟩

theorem witness_wire_window_results : transfersOk 2 ready ∧ transfersOk (transfersOf [0xF0]) ready :=
  ⟨ready_ok (by decide), ready_ok (by decide)⟩

theorem witness_wire_read_results : transfersOk 2 ready := ready_ok (by decide)

theorem witness_send_result : transfersOk (transfersOf []) off ∧ transfersOk (transfersOf [0x05]) off :=
  ⟨ok_of_ready (by decide) rfl rfl, ok_of_ready (by decide) rfl rfl⟩

theorem witness_receive_result : 0 < 1 ∧ transfersOk 2 ready ∧ transfersOk 1 ready :=
  ⟨by decide, ready_ok (by decide), ready_ok (by decide)⟩

theorem witness_send_fails_opcode : (∃ t, exec (.send 0x22 [0xF7]) (bench [.fail 3] []) = .next t) ∧
    (bench [.fail 3] []).env.transfer 0 = .fail 3 := ⟨⟨_, rfl⟩, rfl⟩

theorem witness_send_fails_payload : (∃ t, exec (.send 0x24 [0xAA]) (bench [.ok, .fail 9] []) = .next t) ∧
    ([0xAA] : List Byte) ≠ [] ∧ (bench [.ok, .fail 9] []).env.transfer 0 = .ok ∧
    (bench [.ok, .fail 9] []).env.transfer 1 = .fail 9 := ⟨⟨_, rfl⟩, by decide, rfl, rfl⟩

theorem witness_encoder_results : ready.lstate = .idle ∧ transfersOk 2 ready ∧ transfersOk 1 ready :=
  ⟨rfl, ready_ok (by decide), ready_ok (by decide)⟩

theorem witness_gate_scan_range_result : ready.lstate = .idle ∧ transfersOk 4 ready := ⟨rfl, ready_ok (by decide)⟩

theorem witness_read_temperature_result : ready.lstate = .idle ∧ transfersOk 2 ready := ⟨rfl, ready_ok (by decide)⟩

theorem witness_read_user_id_result : ready.lstate = .idle ∧ transfersOk 2 ready := ⟨rfl, ready_ok (by decide)⟩

/-- Operands at the boundaries: width 0, 2040 with 16, 65528 with 8, x = 2048. -/
theorem aligned_boundaries : (0 : W16).toNat % 8 = 0 ∧ (8 : W16).toNat % 8 = 0 ∧ (16 : W16).toNat % 8 = 0 ∧
    (2040 : W16).toNat % 8 = 0 ∧ (2048 : W16).toNat % 8 = 0 ∧ (65528 : W16).toNat % 8 = 0 := by decide

theorem witness_window_results : ready.lstate = .idle ∧ (2040 : W16).toNat % 8 = 0 ∧ (16 : W16).toNat % 8 = 0 ∧
    (2048 : W16).toNat % 8 = 0 ∧ transfersOk 2 ready ∧ transfersOk 4 ready :=
  ⟨rfl, by decide, by decide, by decide, ready_ok (by decide), ready_ok (by decide)⟩

theorem witness_horizontal_fields : ready.lstate = .idle ∧ (65528 : W16).toNat % 8 = 0 ∧ (0 : W16).toNat % 8 = 0 ∧
    transfersOk 2 ready := ⟨rfl, by decide, by decide, ready_ok (by decide)⟩

theorem witness_reset_full_range_result : ready.cfg.wf = true ∧ ready.lstate = .idle ∧ transfersOk 4 ready :=
  ⟨by decide, rfl, ready_ok (by decide)⟩

/-- The first `n` transfers of this script are `Ok`, the next one fails. -/
theorem ok_before {n : Nat} (code : Nat) (busy : List Bool) :
    transfersOk n (bench (List.replicate n .ok ++ [.fail code]) busy) ∧
      (bench (List.replicate n .ok ++ [.fail code]) busy).env.transfer n = .fail code := by
  refine ⟨fun k hk => ?_, ?_⟩ <;> simp_all [bench, Env.transfer, Env.atReset, List.getElem?_append_left]

/-- Each of the four transfers, the first that fails. -/
theorem witness_start_address_fails : (16 : W16).toNat % 8 = 0 ∧ ∀ n < 4,
    let s := bench (List.replicate n .ok ++ [.fail 6]) []
    s.lstate = .idle ∧ transfersOk n s ∧ s.env.transfer (s.env.xferPos + n) = .fail 6 ∧
      ∃ t, exec (.setStartAddress 16 10) s = .next t := by
  refine ⟨by decide, fun n _ => ?_⟩
  obtain ⟨h1, h2⟩ := ok_before (n := n) 6 []
  exact ⟨rfl, h1, by simpa [bench, Env.atReset] using h2, _, rfl⟩

theorem witness_write_region_result_both : ready.lstate = .idle ∧
    writeRegionOk 8 2 (some [0xF0, 0x0F]) (some [0x00, 0xFF]) = true ∧ (0 : W16).toNat % 8 = 0 ∧ (8 : W16).toNat % 8 = 0 ∧
    transfersOk (transfersOfAll (regionFrames 0 0 8 2 (some [0xF0, 0x0F]) (some [0x00, 0xFF]))) ready :=
  ⟨rfl, by decide, by decide, by decide, ready_ok (by decide)⟩

theorem witness_write_region_result_none : ready.lstate = .idle ∧ writeRegionOk 0 5 none none = true ∧
    (65528 : W16).toNat % 8 = 0 ∧ (0 : W16).toNat % 8 = 0 ∧
    transfersOk (transfersOfAll (regionFrames 65528 0 0 5 none none)) ready :=
  ⟨rfl, by decide, by decide, by decide, ready_ok (by decide)⟩

theorem witness_write_region_contract : ([0xF0] : List Byte).length ≠ (8 : W16).toNat / 8 * (2 : W16).toNat ∧
    ([0xF0, 0x0F, 0x00] : List Byte).length ≠ (8 : W16).toNat / 8 * (2 : W16).toNat := by decide

theorem witness_read_region_result : ready.lstate = .idle ∧ (8 : W16).toNat % 8 = 0 ∧ (0 : W16).toNat % 8 = 0 ∧
    transfersOk 4 ready ∧ transfersOk 12 ready ∧ transfersOk 20 ready :=
  ⟨rfl, by decide, by decide, ready_ok (by decide), ready_ok (by decide), ready_ok (by decide)⟩

theorem witness_read_region_lengths : ∃ u, exec (.readRegion 0 0 8 0 true true) ready = .next u ∧ u.rsp.status = .ok :=
  ⟨_, rfl, by decide⟩

theorem witness_region_fits_corner : regionFits 2040 65535 8 1 := by unfold regionFits; decide

theorem witness_peer_ready : peerReady withPeer := by unfold peerReady; decide

theorem witness_region_round_trip : regionFits 2040 65535 8 1 ∧ peerReady withPeer ∧ withPeer.lstate = .idle ∧
    ([0xA5] : List Byte).length = (8 : W16).toNat / 8 * (1 : W16).toNat ∧ transfersOk 22 withPeer :=
  ⟨witness_region_fits_corner, witness_peer_ready, rfl, by decide, ok_of_ready (by decide) rfl rfl⟩

theorem witness_write_region_stores : regionFits 8 1 8 2 ∧ peerReady withPeer ∧ withPeer.lstate = .idle ∧
    ([0xA5, 0x5A] : List Byte).length = (8 : W16).toNat / 8 * (2 : W16).toNat ∧ transfersOk 10 withPeer ∧
    (∃ u, exec (.writeRegion 8 1 8 2 (some [0xA5, 0x5A]) none) withPeer = .next u) ∧
    (∃ u, exec (.writeRegion 8 1 8 2 none (some [0xA5, 0x5A])) withPeer = .next u) ∧
    ¬ inRegion .black 8 1 8 2 0 ∧ ¬ inRegion .red 8 1 8 2 0 := by
  refine ⟨by unfold regionFits; decide, witness_peer_ready, rfl, by decide, ok_of_ready (by decide) rfl rfl,
    ⟨_, rfl⟩, ⟨_, rfl⟩, ?_, ?_⟩
  all_goals
    rintro ⟨i, j, hi, hj, h⟩
    have hi : i < 1 := hi
    have hj : j < 2 := hj
    obtain rfl : i = 0 := by omega
    obtain rfl | rfl : j = 0 ∨ j = 1 := by omega
    all_goals exact absurd h (by decide)

/-- As `ready`, with the busy line asserted at the first poll. -/
def busyBench : State := bench (List.replicate 40 .ok) [true, false]

theorem witness_init_result :
    transfersOk 15 ready ∧ busyLevel ({ (start tagInit ready).pulsed with lstate := .awaitingReady }.wrote 0x12 []) = false :=
  ⟨ready_ok (by decide), by decide⟩

theorem witness_init_result_waits : transfersOk 1 busyBench ∧
    busyLevel ({ (start tagInit busyBench).pulsed with lstate := .awaitingReady }.wrote 0x12 []) = true :=
  ⟨ok_of_ready (by decide) rfl rfl, by decide⟩

theorem witness_refresh_result : ready.lstate = .idle ∧ transfersOk 5 ready ∧
    busyLevel ({ start tagRefresh ready with lstate := .updating }.wroteAll refreshFrames) = false :=
  ⟨rfl, ready_ok (by decide), by decide⟩

theorem witness_refresh_result_waits : busyBench.lstate = .idle ∧ transfersOk 5 busyBench ∧
    busyLevel ({ start tagRefresh busyBench with lstate := .updating }.wroteAll refreshFrames) = true :=
  ⟨rfl, ok_of_ready (by decide) rfl rfl, by decide⟩

theorem witness_busy_wait_result : busyLevel off = false ∧ busyLevel busyBench = true := by decide

theorem witness_busy_line_hangs : (waiting tagRefresh .updating).cfg.wf = true ∧
    (waiting tagRefresh .updating).seq = some { tag := tagRefresh, index := 5 } ∧ busyFor 2 (waiting tagRefresh .updating) :=
  ⟨by decide, rfl, waiting_busy _ _⟩

theorem witness_busy_line_hangs_init : (waiting tagInit .awaitingReady).cfg.wf = true ∧
    (waiting tagInit .awaitingReady).seq = some { tag := tagInit, index := 5 } ∧
    busyFor 2 (waiting tagInit .awaitingReady) := ⟨by decide, rfl, waiting_busy _ _⟩

theorem witness_wait_ends_busy_wait : (waiting tagBusyWait .idle).cfg.wf = true ∧
    (waiting tagBusyWait .idle).seq = some { tag := tagBusyWait, index := 5 } ∧
    busyThenReady 2 (waiting tagBusyWait .idle) := ⟨by decide, rfl, waiting_ready _ _⟩

theorem witness_wait_ends_refresh : (waiting tagRefresh .updating).cfg.wf = true ∧
    (waiting tagRefresh .updating).seq = some { tag := tagRefresh, index := 5 } ∧
    busyThenReady 2 (waiting tagRefresh .updating) := ⟨by decide, rfl, waiting_ready _ _⟩

theorem witness_wait_ends_init : (waiting tagInit .awaitingReady).cfg.wf = true ∧
    (waiting tagInit .awaitingReady).seq = some { tag := tagInit, index := 5 } ∧
    busyThenReady 2 (waiting tagInit .awaitingReady) ∧ transfersOk 14 (waiting tagInit .awaitingReady) :=
  ⟨by decide, rfl, waiting_ready _ _, waiting_ok _ _⟩

/-- The user ID's `Rx` and the last payload of the configuration, each the first transfer that fails after the wait. -/
theorem witness_wait_ends_init_fails : ∀ k ∈ [1, 13],
    let s := { bench (List.replicate k .ok ++ [.fail 9]) [true, true, false] with
      lstate := .awaitingReady, seq := some { tag := tagInit, index := 11 } }
    s.cfg.wf = true ∧ s.seq = some { tag := tagInit, index := 11 } ∧ busyThenReady 2 s ∧ k < 14 ∧ transfersOk k s ∧
      s.env.transfer (s.env.xferPos + k) = .fail 9 := by
  intro k hk
  obtain ⟨h1, h2⟩ := ok_before (n := k) 9 [true, true, false]
  refine ⟨(by decide : Config.strapped.wf = true), rfl, ⟨⟨fun h => by simp [bench, Env.atReset] at h, fun j hj => ?_⟩, rfl⟩, ?_, h1, ?_⟩
  · match j, hj with
    | 0, _ => rfl
    | 1, _ => rfl
  · simp at hk; omega
  · simpa [bench, Env.atReset] using h2

/-- A waiting `INIT` whose line is ready, and whose first transfer after the wait fails. -/
theorem witness_resumed_wait :
    let s := { bench [.fail 4] [false] with lstate := .awaitingReady, seq := some { tag := tagInit, index := 11 } }
    s.seq = some { tag := tagInit, index := 11 } ∧ ∃ t, resumeWait { tag := tagInit, index := 11 } s = .next t ∧
      t.seq = none ∧ t.rsp.status = .transportError 4 := ⟨rfl, _, rfl, rfl, rfl⟩

theorem witness_lifecycle_transitions : (∃ t, exec .nop ready = .next t) ∧ writesLState .nop = false ∧
    (∃ t, exec .reset ready = .next t) ∧ (∃ t, exec .init ready = .next t) ∧ (∃ t, exec .refresh ready = .next t) ∧
    (∃ t, exec .refresh off = .next t) ∧ off.lstate ≠ .idle :=
  ⟨⟨_, rfl⟩, rfl, ⟨_, rfl⟩, ⟨_, rfl⟩, ⟨_, rfl⟩, ⟨_, rfl⟩, by decide⟩

theorem witness_gate_refuses_outside_idle : isGated (.setHRange 3 8) = true ∧
    wellFormed off.cfg (.setHRange 3 8) = true ∧ off.lstate ≠ .idle := by decide

theorem witness_init_user_id_fails :
    let s := bench [.ok, .ok, .fail 2] [false]
    s.env.busyAt s.env.busyPos = false ∧ s.env.transfer 0 = .ok ∧ s.env.transfer 1 = .ok ∧ s.env.transfer 2 = .fail 2 ∧
      ∃ t, exec .init s = .next t := ⟨rfl, rfl, rfl, rfl, _, rfl⟩

/-- The opcode of the software reset has no payload, so the user ID's `Rx` is the third transfer. -/
theorem witness_init_user_id_fails_in_rx :
    (after .init (bench [.ok, .ok, .fail 2] [false])).rsp.status = .transportError 2 := by decide

theorem witness_cursor_moves : (0x41 : Byte) ≠ 0x08 ∧ (0x41 : Byte) ≠ 0x09 ∧ (0x41 : Byte) ≠ 0x0A ∧ (0x41 : Byte) ≠ 0x0D := by
  decide

theorem font8_ok : fontOk font8 = true := by decide +kernel

theorem witness_print_h_result : ready.cfg.hasText = true ∧ fontOk font8 = true ∧ ready.lstate = .idle ∧
    ((8 : W16).toNat % 8 = 0 ∧ font8.gw % 8 = 0) ∧
    transfersOk (transfersOfAll (textFrames (originH 8 8 font8) font8 (drawnCells 1 [0x48, 0x69] (0, 0)))) ready :=
  ⟨rfl, font8_ok, rfl, by decide, ready_ok (by decide +kernel)⟩

theorem witness_print_h_result_nothing : drawnCells 1 [9, 8, 13, 10] (0, 0) = [] ∧
    transfersOk (transfersOfAll (textFrames (originH 3 0 font8) font8 (drawnCells 1 [9, 8, 13, 10] (0, 0)))) ready :=
  ⟨by decide, ready_ok (by decide)⟩

theorem witness_print_v_result : ready.cfg.hasText = true ∧ fontOk font8 = true ∧ ready.lstate = .idle ∧
    ((16 : W16).toNat % 8 = 0 ∧ font8.gw % 8 = 0) ∧
    transfersOk (transfersOfAll (textFrames (originV 16 0 font8) font8 (drawnCells (-1) [0x41, 10, 0x43] (0, 0)))) ready :=
  ⟨rfl, font8_ok, rfl, by decide, ready_ok (by decide +kernel)⟩

theorem witness_text_contract : ({ Config.strapped with hasText := false } : Cfg).hasText = false ∧
    ready.cfg.hasText = true ∧ ({ font8 with table := [] } : Font).table.length ≠ 256 ∧
    (∃ g ∈ ({ font8 with gh := 7 } : Font).table, g.length ≠ (font8.gw + 7) / 8 * 7) :=
  ⟨rfl, rfl, by decide, _, List.mem_of_mem_head? rfl, by decide⟩

theorem witness_misaligned_answers : ready.lstate = .idle ∧ (3 : W16).toNat % 8 ≠ 0 ∧ (12 : W16).toNat % 8 ≠ 0 ∧
    writeRegionOk 12 1 (some [0x00]) none = true ∧ writeRegionOk 8 1 (some [0xFF]) none = true := by decide

theorem witness_misaligned_text : ready.cfg.hasText = true ∧ fontOk font8 = true ∧ ready.lstate = .idle ∧
    (4 : W16).toNat % 8 ≠ 0 ∧ drawnCells 1 [0x0A, 0x41] (0, 0) ≠ [] ∧ drawnCells (-1) [0x41] (0, 0) ≠ [] :=
  ⟨rfl, font8_ok, rfl, by decide, by decide, by decide⟩

theorem witness_status_table_sequence_error : off.cfg.wf = true ∧ ∃ t, exec .nop off = .next t ∧ t.seq = none ∧
    t.rsp.status = .sequenceError := ⟨by decide, _, rfl, rfl, rfl⟩

theorem witness_status_table_alignment_error : ready.cfg.wf = true ∧ ∃ t, exec (.setHRange 3 8) ready = .next t ∧
    t.seq = none ∧ t.rsp.status = .alignmentError := ⟨by decide, _, rfl, rfl, rfl⟩

theorem witness_first_failure_reported : ∃ t, exec (.gateScanRange 0 296) (bench [.ok, .fail 1] []) = .next t ∧
    t.seq = none ∧ t.rsp.status = .transportError 1 := ⟨_, rfl, rfl, rfl⟩

theorem witness_first_failure_reported_ok : ∃ t, exec .nop ready = .next t ∧ t.seq = none ∧ t.rsp.status = .ok :=
  ⟨_, rfl, rfl, rfl⟩

theorem ready_inv : EngineInv ready :=
  ⟨by decide, rfl, .inr rfl, ⟨List.Pairwise.nil, by simp [ready, bench, State.reset, State.resetWith, Peer.atReset]⟩, rfl⟩

theorem witness_engine_invariant_kept : EngineInv { ready with port := [.request (rf 0x10 0 0 0 0)] } ∧
    ∃ t, step { ready with port := [.request (rf 0x10 0 0 0 0)] } = .next t :=
  ⟨⟨ready_inv.cfg, ready_inv.lines, .inr rfl, ready_inv.ram, ready_inv.bus⟩, _, rfl⟩

theorem witness_configuration_constant : ∃ t, step State.reset = .next t := ⟨_, rfl⟩

theorem witness_trace_rules : (∃ t, exec .nop ready = .next t) ∧ hasBusyWait .nop = false ∧ Instr.nop ≠ .reset ∧
    Instr.nop ≠ .init ∧ ready.cfg.hasAct = false := ⟨⟨_, rfl⟩, rfl, by decide, by decide, rfl⟩

theorem witness_shadow_rules : (∃ t, exec (.send 0x12 []) shadowed = .next t) ∧ (∃ t, exec .nop shadowed = .next t) ∧
    tracksWindow .nop = false := ⟨⟨_, rfl⟩, ⟨_, rfl⟩, rfl⟩

/-- A failing frame of each of the four opcodes. -/
theorem witness_shadow_rules_failing :
    let s := { shadowed with env := { shadowed.env with xfer := [.ok, .fail 3] } }
    ∀ i ∈ ([.setHRange 8 16, .opRamXRange 1 2, .setVRange 1 2, .opRamYRange 1 2, .opRamXCounter 1, .opRamYCounter 1] :
      List Instr), ∃ t, exec i s = .next t ∧ t.rsp.status = .transportError 3 := by
  intro s i hi
  simp only [List.mem_cons, List.not_mem_nil, or_false] at hi
  rcases hi with rfl | rfl | rfl | rfl | rfl | rfl <;> exact ⟨_, rfl, rfl⟩

theorem witness_ram_unchanged : mayStore (.setHRange 0 8) = false ∧ (withPeer.env.refPeer = true → withPeer.peer.busy = false) ∧
    ∃ t, exec (.setHRange 0 8) withPeer = .next t := ⟨rfl, fun _ => rfl, _, rfl⟩

theorem witness_peer_register_frames : withPeer.env.refPeer = true ∧ withPeer.peer.busy = false ∧ transfersOk 2 withPeer ∧
    ∃ t, exec (.opRamXRange 1 2) withPeer = .next t := ⟨rfl, rfl, ok_of_ready (by decide) rfl rfl, _, rfl⟩

/-- The counter at the far corner of its window. -/
theorem witness_advance_stays_in_window :
    let r : PeerRegs := { xs := 1, xe := 255, ys := 2, ye := 65535, cx := 255, cy := 65535, dem := 7, bank := .black }
    r.dem.getLsbD 0 = true ∧ r.dem.getLsbD 1 = true ∧ inWindow r = true := by decide

/-- The last byte of a window of two columns and two rows. -/
theorem witness_advance_row_major :
    let r : PeerRegs := { xs := 1, xe := 2, ys := 3, ye := 4, cx := 1, cy := 3, dem := 3, bank := .black }
    r.dem = 3 ∧ r.cx = r.xs ∧ r.cy = r.ys ∧ r.xs ≤ r.xe ∧ r.ys ≤ r.ye ∧
      3 < (r.xe.toNat - r.xs.toNat + 1) * (r.ye.toNat - r.ys.toNat + 1) := by decide

theorem witness_peer_busy : withPeer.env.refPeer = true ∧ withPeer.peer.busy = false ∧ transfersOk 2 withPeer ∧
    (∃ t, exec .opSwReset withPeer = .next t) ∧ (∃ t, exec .opMasterActivation withPeer = .next t) ∧
    (∃ t, exec (.opPatternPrimary 0x81) withPeer = .next t) ∧ (∃ t, exec (.opPatternSecondary 0x41) withPeer = .next t) ∧
    ∃ t, exec .busyWait withPeer = .next t :=
  ⟨rfl, rfl, ok_of_ready (by decide) rfl rfl, ⟨_, rfl⟩, ⟨_, rfl⟩, ⟨_, rfl⟩, ⟨_, rfl⟩, _, rfl⟩

end Sys2Proof.Tests
end

/-! What one instruction may add to the trace (R11, R147, R148, R261, R268), as one relation between the states before and
after it, and the rules about every `exec` and every `step` that follow from it (O52, O53). -/

namespace Sys2Proof.Machine

/-! ### The events of an instruction -/

/-- The events an instruction may make: those of its frames, the delays, and, by the kind of the instruction, the polls of
the busy line (R268) and the levels of the reset line (R261). -/
def instrEvent (c : Cfg) (i : Instr) : Event → Prop
  | .busy _ => hasBusyWait i = true
  | .rst _ => i = .reset ∨ i = .init
  | .delay _ => True
  | e => frameEvent c e

variable {c : Cfg} {i : Instr} {e : Event} {s t u : State}

/-- Every instruction may run frames. -/
theorem instrEvent_of_frameEvent (h : frameEvent c e) : instrEvent c i e := by
  cases e with
  | cs | dc | act | tx | rx => exact h
  | rst | busy | delay => exact h.elim

theorem instrEvent_timeLimit (h : instrEvent c i e) {limit : W32} (hl : e.timeLimit = some limit) :
    limit = c.timeout := by
  cases e with
  | tx | rx => exact (Option.some.inj hl).symm.trans h
  | cs | dc | rst | act | busy | delay => simp [Event.timeLimit] at hl

theorem instrEvent_isPoll (h : instrEvent c i e) (hi : hasBusyWait i = false) : e.isPoll = false := by
  cases e with
  | busy => exact absurd (hi.symm.trans h) (by decide)
  | cs | dc | rst | act | tx | rx | delay => rfl

theorem instrEvent_isReset (h : instrEvent c i e) (hr : i ≠ .reset) (hn : i ≠ .init) : e.isReset = false := by
  cases e with
  | rst => exact (h.elim hr hn).elim
  | cs | dc | act | busy | tx | rx | delay => rfl

theorem instrEvent_isAct (h : instrEvent c i e) (ha : c.hasAct = false) : e.isAct = false := by
  cases e with
  | act => exact absurd (ha.symm.trans h) (by decide)
  | cs | dc | rst | busy | tx | rx | delay => rfl

/-! ### The relation `Traced` -/

/-- From `s` to `t` the configuration stayed, and the trace grew by events that the instruction `i` may make. -/
structure Traced (i : Instr) (s t : State) : Prop where
  cfg   : t.cfg = s.cfg
  trace : ∃ es, t.trace = s.trace ++ es ∧ ∀ p ∈ es, instrEvent s.cfg i p.2

/-- What touches neither the configuration nor the trace. -/
theorem Traced.ofEq (hc : t.cfg = s.cfg) (ht : t.trace = s.trace) : Traced i s t :=
  ⟨hc, [], by rw [ht, List.append_nil], by simp⟩

theorem Traced.trans (h1 : Traced i s t) (h2 : Traced i t u) : Traced i s u := by
  obtain ⟨es, e1, e2⟩ := h1.trace
  obtain ⟨fs, f1, f2⟩ := h2.trace
  rw [h1.cfg] at f2
  refine ⟨h2.cfg.trans h1.cfg, es ++ fs, by rw [f1, e1, List.append_assoc], fun p hp => ?_⟩
  exact (List.mem_append.mp hp).elim (e2 p) (f2 p)

theorem Traced.refl (s : State) : Traced i s s := .ofEq rfl rfl

/-- `SEQ` does not matter to the relation. -/
theorem Traced.ofStart {g : Byte} (h : Traced i (start g s) t) : Traced i s t := ⟨h.cfg, h.trace⟩

/-- `LSTATE` does not matter to the relation. -/
theorem Traced.ofLState {l : LState} (h : Traced i (setLState l s) t) : Traced i s t := ⟨h.cfg, h.trace⟩

theorem Traced.setLState (l : LState) (h : Traced i s t) : Traced i s (setLState l t) := ⟨h.cfg, h.trace⟩

theorem Traced.answer (st : Status) (h : Traced i s t) : Traced i s (answer st t) :=
  h.trans (.ofEq (answer_cfg t st) (answer_trace t st))

/-- Frames are allowed in every instruction. -/
theorem Ran.traced {r : Status × State} (h : Ran s r) : Traced i s r.2 := by
  obtain ⟨es, hes, hfr, -⟩ := h.trace
  refine ⟨h.cfg, stamp s.lstate es, hes, fun p hp => ?_⟩
  obtain ⟨e, he, rfl⟩ := List.mem_map.mp hp
  exact instrEvent_of_frameEvent (hfr e he)

/-- The reset pulse is allowed in `RESET` and `INIT` (R260, R263). -/
theorem traced_pulsed (hi : i = .reset ∨ i = .init) (s : State) : Traced i s s.pulsed :=
  ⟨rfl, _, rfl, by simp [stamp, instrEvent, hi]⟩

/-! ### The busy-wait -/

theorem traced_initFail (st : Status) (s : State) : Traced i s (initFail st s) :=
  ((Traced.refl s).setLState .poweredOff).answer st

theorem traced_initConfigure (s : State) : Traced i s (initConfigure s) := by
  have hr : Traced i s (configureBody (setLState .configuring s)).2 :=
    (Ran.configureBody (setLState .configuring s)).traced.ofLState
  unfold initConfigure
  dsimp only
  split
  · exact (hr.setLState .idle).answer .ok
  · exact hr.trans (traced_initFail _ _)

theorem traced_afterWait (tag : Byte) (s : State) : Traced i s (afterWait tag s) := by
  unfold afterWait
  split_ifs
  · exact traced_initConfigure s
  · exact ((Traced.refl s).setLState .idle).answer .ok
  · exact (Traced.refl s).answer .ok

/-- A poll is allowed in every instruction that has a busy-wait (R268). -/
theorem traced_readBusy (hi : hasBusyWait i = true) (s : State) : Traced i s (readBusy s).2 := by
  obtain ⟨p, e, -⟩ := readBusy_cases s
  rw [e]
  exact ⟨rfl, _, rfl, by simp [instrEvent, hi]⟩

theorem traced_delay (ms : Nat) (s : State) : Traced i s (delay ms s) :=
  ⟨rfl, _, emit_trace s (.delay ms), by simp [instrEvent]⟩

theorem traced_waitTurn (hi : hasBusyWait i = true) (tag : Byte) (s : State) : Traced i s (waitTurn tag s) := by
  unfold waitTurn
  dsimp only
  split
  · exact (traced_readBusy hi s).trans (traced_delay _ _)
  · exact (traced_readBusy hi s).trans (traced_afterWait tag _)

/-! ### Every instruction -/

theorem traced_execReset (h : execReset s = .next t) : Traced .reset s t := by
  obtain rfl := Host.Outcome.next.inj h
  rw [resetBody_eq]
  have hp : Traced .reset s (start tagReset s).pulsed := (traced_pulsed (.inl rfl) _).ofStart
  exact (hp.setLState .poweredOff).answer .ok

theorem traced_initStart (s : State) : Traced .init s (initStart s).2 := by
  unfold initStart
  rw [resetBody_eq]
  have hp : Traced .init s (start tagInit s).pulsed := (traced_pulsed (.inr rfl) _).ofStart
  exact (hp.setLState .awaitingReady).trans (Ran.frameW 0x12 [] _).traced

theorem traced_execInit (h : execInit s = .next t) : Traced .init s t := by
  obtain rfl := Host.Outcome.next.inj h
  split
  · exact (traced_initStart s).trans (traced_waitTurn rfl _ _)
  · exact (traced_initStart s).trans (traced_initFail _ _)

theorem traced_execRefresh (h : execRefresh s = .next t) : Traced .refresh s t := by
  obtain rfl := Host.Outcome.next.inj h
  by_cases hl : s.lstate = .idle
  · rw [gated_idle hl]
    have hr : Traced .refresh s (refreshBody (setLState .updating (start tagRefresh s))).2 :=
      (Ran.refreshBody (setLState .updating (start tagRefresh s))).traced.ofLState.ofStart
    dsimp only
    split
    · exact hr.trans (traced_waitTurn rfl _ _)
    · exact (hr.setLState .idle).answer _
  · rw [gated_not_idle hl]
    exact .ofEq rfl rfl

theorem traced_execBusyWait (h : execBusyWait s = .next t) : Traced .busyWait s t := by
  obtain rfl := Host.Outcome.next.inj h
  exact (traced_waitTurn rfl tagBusyWait (start tagBusyWait s)).ofStart

/-- An instruction outside the lifecycle file makes the events of its frames only. -/
theorem traced_of_not_lifecycle (hi : isLifecycle i = false) (h : exec i s = .next t) : Traced i s t := by
  rcases exec_cases hi h with ⟨-, -, rfl⟩ | ⟨r, hr, -, -, rfl⟩
  · exact .ofEq rfl rfl
  · exact hr.traced.answer r.1

theorem isLifecycle_cases (hi : isLifecycle i = true) : i = .reset ∨ i = .init ∨ i = .refresh ∨ i = .busyWait := by
  cases i <;> simp_all [isLifecycle]

/-- Every instruction keeps the configuration and adds to the trace only what it may. -/
theorem exec_traced (h : exec i s = .next t) : Traced i s t := by
  cases hi : isLifecycle i with
  | false => exact traced_of_not_lifecycle hi h
  | true =>
    rcases isLifecycle_cases hi with rfl | rfl | rfl | rfl
    · exact traced_execReset h
    · exact traced_execInit h
    · exact traced_execRefresh h
    · exact traced_execBusyWait h

theorem Traced.trace_grows (h : Traced i s t) : s.trace <+: t.trace := by
  obtain ⟨es, hes, -⟩ := h.trace
  exact ⟨es, hes.symm⟩

theorem Traced.added (h : Traced i s t) : ∀ e ∈ addedEvents s t, instrEvent s.cfg i e := by
  obtain ⟨es, hes, hev⟩ := h.trace
  intro e he
  rw [addedEvents, hes, List.drop_left] at he
  obtain ⟨p, hp, rfl⟩ := List.mem_map.mp he
  exact hev p hp

/-- Settles O53: each rule is a property of the events that the relation `Traced` allows the instruction. -/
theorem traceRules : Obligations.TraceRules := by
  intro i s t h
  have ht := exec_traced h
  exact ⟨ht.trace_grows, fun e he _ hl => instrEvent_timeLimit (ht.added e he) hl,
    fun hi e he => instrEvent_isPoll (ht.added e he) hi,
    fun hr hn e he => instrEvent_isReset (ht.added e he) hr hn,
    fun ha e he => instrEvent_isAct (ht.added e he) ha⟩

/-! ### The step -/

theorem step_illFormed (hc : s.cfg.wf = false) : step s = .refused .illFormedConfig := by simp [step, hc]

theorem step_nothing (hc : s.cfg.wf = true) (hs : s.seq = none) (hp : s.port = []) : step s = .next s := by
  simp [step, hc, hs, takeItem_nil hp]

theorem step_item {j : Item} (hc : s.cfg.wf = true) (hs : s.seq = none) (hj : takeItem s = some (j, t)) :
    step s = runItem j t := by
  simp [step, hc, hs, hj]

/-- Everything taking an item can do: the port loses its first item, and a request is latched. -/
theorem takeItem_cases {j : Item} (h : takeItem s = some (j, t)) :
    (∃ f rest, j = .request f ∧ s.port = j :: rest ∧ t = { s with port := rest, req := f }) ∨
    (∃ f rest, j = .wire f ∧ s.port = j :: rest ∧ t = { s with port := rest }) := by
  unfold takeItem at h
  split at h
  case h_1 => simp at h
  case h_2 f rest hp =>
    obtain ⟨rfl, rfl⟩ := Prod.mk.inj (Option.some.inj h)
    exact .inl ⟨f, rest, rfl, hp, rfl⟩
  case h_3 f rest hp =>
    obtain ⟨rfl, rfl⟩ := Prod.mk.inj (Option.some.inj h)
    exact .inr ⟨f, rest, rfl, hp, rfl⟩

theorem takeItem_cfg {j : Item} (h : takeItem s = some (j, t)) : t.cfg = s.cfg := by
  rcases takeItem_cases h with ⟨_, _, -, -, rfl⟩ | ⟨_, _, -, -, rfl⟩ <;> rfl

theorem runItem_ok {j : Item} (h : decode j = .ok i) : runItem j s = exec i s := by simp only [runItem, h]

theorem runItem_error {j : Item} {r : Reject} (h : decode j = .error r) :
    runItem j s = .refused (.noSuchItem (itemNumber j)) := by simp only [runItem, h]

theorem runItem_next {j : Item} (h : runItem j s = .next t) : ∃ i, decode j = .ok i ∧ exec i s = .next t := by
  cases hd : decode j with
  | ok i => exact ⟨i, rfl, runItem_ok hd ▸ h⟩
  | error r => rw [runItem_error hd] at h; cases h

/-- Everything a step that gives a next state can do: a waiting request polls again, nothing is presented, or the next
presented item is run. -/
theorem step_cases (h : step s = .next t) :
    s.cfg.wf = true ∧
    ((∃ q, s.seq = some q ∧ (q.tag = tagInit ∨ q.tag = tagRefresh ∨ q.tag = tagBusyWait) ∧ t = waitTurn q.tag s) ∨
    (s.seq = none ∧ s.port = [] ∧ t = s) ∨
    (s.seq = none ∧ ∃ j u i, takeItem s = some (j, u) ∧ decode j = .ok i ∧ exec i u = .next t)) := by
  cases hc : s.cfg.wf with
  | false => rw [step_illFormed hc] at h; cases h
  | true =>
    refine ⟨rfl, ?_⟩
    cases hs : s.seq with
    | some q =>
      by_cases hq : q.tag = tagInit ∨ q.tag = tagRefresh ∨ q.tag = tagBusyWait
      · rw [step_waiting hc hs hq] at h
        exact .inl ⟨q, rfl, hq, (Host.Outcome.next.inj h).symm⟩
      · simp [step, hc, hs, resumeWait, hq] at h
    | none =>
      cases hp : s.port with
      | nil =>
        rw [step_nothing hc hs hp] at h
        exact .inr (.inl ⟨rfl, rfl, (Host.Outcome.next.inj h).symm⟩)
      | cons j rest =>
        obtain ⟨u, hu⟩ : ∃ u, takeItem s = some (j, u) := by
          cases j with
          | request f => exact ⟨_, takeItem_request hp⟩
          | wire f => exact ⟨_, takeItem_wire hp⟩
        rw [step_item hc hs hu] at h
        obtain ⟨i, hd, he⟩ := runItem_next h
        exact .inr (.inr ⟨rfl, j, u, i, hu, hd, he⟩)

/-- Settles O52: a resumed busy-wait and every `exec` keep the configuration (`Traced`), and taking an item does. -/
theorem configurationConstant : Obligations.ConfigurationConstant := by
  intro s t h
  obtain ⟨-, ⟨q, -, -, rfl⟩ | ⟨-, -, rfl⟩ | ⟨-, j, u, i, hu, -, he⟩⟩ := step_cases h
  · exact (traced_waitTurn (i := .busyWait) rfl q.tag s).cfg
  · rfl
  · exact (exec_traced he).cfg.trans (takeItem_cfg hu)

/-! ### Reset and refused items -/

/-- The invariant holds at reset with every well-formed configuration (R47, R361). -/
theorem resetWith_engineInv (hc : c.wf = true) : EngineInv (State.resetWith c) where
  cfg := hc
  lines := rfl
  seq := .inl rfl
  ram := Memory.wf_nil
  bus := busOk_nil

/-- Settles O2: the strapped configuration is well formed. -/
theorem engineInvariantAtReset : Obligations.EngineInvariantAtReset := resetWith_engineInv (by decide)

/-- No tag above 0x1C is a request (R126). -/
theorem decodeRequest_unknownTag {f : ReqFrame} (h : 0x1C < f.tag.toNat) :
    decodeRequest f = .error (.unknownTag f.tag) := by
  unfold decodeRequest
  split
  case h_30 => rfl
  all_goals
    rename_i ht
    exact absurd h (by rw [ht]; decide)

/-- No unassigned command byte is an opcode (R112). -/
theorem decodeWire_unassigned {f : WireFrame} (h : f.cmd ∉ assignedOpcodes) :
    decodeWire f = .error (.unassignedOpcode f.cmd) := if_neg h

/-- Settles O4: the configuration is checked first, an empty port waits, and an item that does not decode is refused. -/
theorem stepStops : Obligations.StepStops := by
  intro s
  refine ⟨step_illFormed, step_nothing, ?_, ?_⟩
  · intro f rest hc hs hp ht
    rw [step_item hc hs (takeItem_request hp)]
    exact runItem_error (decodeRequest_unknownTag ht)
  · intro f rest hc hs hp hf
    rw [step_item hc hs (takeItem_wire hp)]
    exact runItem_error (decodeWire_unassigned hf)

end Sys2Proof.Machine

/-! The engine's invariant is kept by every step (O51): the part of it that frames, polls and the reset pulse keep
at every moment between two frames is `Settled`; how `LSTATE` and `SEQ` fit is followed apart from it. -/

namespace Sys2Proof.Machine

variable {s t u : State} {i : Instr} {st : Status} {l : LState} {tag : Byte} {q : Seq}

/-! ### Between two frames -/

/-- `EngineInv` without the fit of `LSTATE` and `SEQ`: what holds whenever no frame is running, inside a request too. -/
structure Settled (s : State) : Prop where
  cfg   : s.cfg.wf = true
  lines : s.line = Lines.idle
  ram   : Memory.wf s.peer.ram
  bus   : busOk (s.trace.map Prod.snd)

theorem EngineInv.settled (h : EngineInv s) : Settled s := ⟨h.cfg, h.lines, h.ram, h.bus⟩

theorem Settled.engineInv (h : Settled s) (hs : seqOk s) : EngineInv s := ⟨h.cfg, h.lines, hs, h.ram, h.bus⟩

/-- Whole frames after whole frames. -/
theorem busOk_trace_append {tr es : List (LState × Event)} (h : busOk (tr.map Prod.snd))
    (he : busOk (es.map Prod.snd)) : busOk ((tr ++ es).map Prod.snd) := by
  rw [List.map_append]
  exact busOk_append h he

theorem Settled.start (g : Byte) (h : Settled s) : Settled (start g s) := ⟨h.cfg, h.lines, h.ram, h.bus⟩

theorem Settled.setLState (l : LState) (h : Settled s) : Settled (setLState l s) := ⟨h.cfg, h.lines, h.ram, h.bus⟩

theorem Settled.answer (st : Status) (h : Settled s) : Settled (answer st s) where
  cfg := by rw [answer_cfg]; exact h.cfg
  lines := by rw [answer_line]; exact h.lines
  ram := by rw [answer_peer]; exact h.ram
  bus := by rw [answer_trace]; exact h.bus

/-- An event that is no part of a frame. -/
theorem Settled.emit {e : Event} (he : busOk [e]) (h : Settled s) : Settled (emit e s) :=
  ⟨h.cfg, h.lines, h.ram, busOk_trace_append (es := [(s.lstate, e)]) h.bus he⟩

/-- Frames, however they end (R145). -/
theorem Settled.ran {r : Status × State} (hr : Ran s r) (h : Settled s) : Settled r.2 where
  cfg := by rw [hr.cfg]; exact h.cfg
  lines := hr.line h.lines
  ram := hr.ram h.ram
  bus := by
    obtain ⟨es, hes, -, hbus⟩ := hr.trace
    rw [hes]
    exact busOk_trace_append h.bus (by rwa [map_snd_stamp])

/-- The reset pulse leaves the reset line high, where it idles (R260, R261). -/
theorem Settled.pulsed (h : Settled s) : Settled s.pulsed where
  cfg := h.cfg
  lines := by
    show { s.line with rst := .high } = Lines.idle
    rw [h.lines]; rfl
  ram := by
    show Memory.wf (if s.env.refPeer then s.peer.hardReset else s.peer).ram
    split <;> exact h.ram
  bus := busOk_trace_append h.bus rfl

/-- A poll, whichever level it reads (R266). -/
theorem Settled.readBusy (h : Settled s) : Settled (readBusy s).2 := by
  obtain ⟨p, e, hp⟩ := readBusy_cases s
  have hram : p.ram = s.peer.ram := by rcases hp with rfl | rfl <;> rfl
  rw [e]
  exact ⟨h.cfg, h.lines, hram ▸ h.ram, busOk_trace_append h.bus rfl⟩

theorem Settled.initFail (st : Status) (h : Settled s) : Settled (initFail st s) := (h.setLState .poweredOff).answer st

theorem Settled.initConfigure (h : Settled s) : Settled (initConfigure s) := by
  have hr : Settled (configureBody (Machine.setLState .configuring s)).2 :=
    (h.setLState .configuring).ran (Ran.configureBody _)
  unfold Machine.initConfigure
  dsimp only
  split
  · exact (hr.setLState .idle).answer .ok
  · exact hr.initFail _

theorem Settled.afterWait (tag : Byte) (h : Settled s) : Settled (afterWait tag s) := by
  unfold Machine.afterWait
  split_ifs
  · exact h.initConfigure
  · exact (h.setLState .idle).answer .ok
  · exact h.answer .ok

theorem Settled.waitTurn (tag : Byte) (h : Settled s) : Settled (waitTurn tag s) := by
  unfold Machine.waitTurn
  dsimp only
  split
  · exact h.readBusy.emit rfl
  · exact h.readBusy.afterWait tag

/-! ### How `LSTATE` and `SEQ` fit -/

/-- The states in which no request runs (R31). -/
def stable (l : LState) : Prop := l = .poweredOff ∨ l = .idle

/-- The states in which a request with this tag waits for the busy line (R33). -/
def waitsIn (tag : Byte) (l : LState) : Prop :=
  (tag = tagInit ∧ l = .awaitingReady) ∨ (tag = tagRefresh ∧ l = .updating) ∨ (tag = tagBusyWait ∧ stable l)

theorem seqOk_none (h : s.seq = none) : seqOk s ↔ stable s.lstate := by simp only [seqOk, h, stable]

theorem seqOk_some (h : s.seq = some q) : seqOk s ↔ waitsIn q.tag s.lstate := by simp only [seqOk, h, waitsIn, stable]

/-- A request that ends in a stable state. -/
theorem seqOk_answer (st : Status) (h : stable s.lstate) : seqOk (answer st s) := by
  rw [seqOk_none (answer_seq s st), answer_lstate]
  exact h

theorem seqOk_initFail (st : Status) (s : State) : seqOk (initFail st s) := seqOk_answer st (.inl rfl)

/-- After its busy-wait `INIT` ends in `Idle` or `PoweredOff` (R263). -/
theorem seqOk_initConfigure (s : State) : seqOk (initConfigure s) := by
  unfold initConfigure
  dsimp only
  split
  · exact seqOk_answer .ok (.inr rfl)
  · exact seqOk_initFail _ _

/-- A request whose busy-wait has ended ends in a stable state. -/
theorem seqOk_afterWait (h : waitsIn tag s.lstate) : seqOk (afterWait tag s) := by
  rcases h with ⟨rfl, -⟩ | ⟨rfl, -⟩ | ⟨rfl, hl⟩
  · exact seqOk_initConfigure s
  · exact seqOk_answer .ok (.inr rfl)
  · exact seqOk_answer .ok hl

/-- A request at its busy-wait stays there or ends. -/
theorem seqOk_waitTurn (hs : s.seq = some q) (h : waitsIn q.tag s.lstate) : seqOk (waitTurn q.tag s) := by
  rcases waitTurn_cases q.tag s with ⟨p, -, e⟩ | ⟨p, -, e⟩ <;> rw [e]
  · exact (seqOk_some (q := q.after 2) (congrArg (Option.map (Seq.after 2)) hs)).2 h
  · exact seqOk_afterWait h

/-! ### The invariant -/

/-- A turn of the busy-wait keeps the invariant (R266, R267). -/
theorem EngineInv.waitTurn (hs : s.seq = some q) (h : EngineInv s) : EngineInv (waitTurn q.tag s) :=
  (h.settled.waitTurn q.tag).engineInv (seqOk_waitTurn hs ((seqOk_some hs).1 h.seq))

/-- A request started outside of a frame that comes to its busy-wait in the state it waits in. -/
theorem Settled.engineInv_waitTurn (h : Settled s) (hs : s.seq = some q) (hl : waitsIn q.tag s.lstate) :
    EngineInv (Machine.waitTurn q.tag s) :=
  (h.engineInv ((seqOk_some hs).2 hl)).waitTurn hs

/-- A request that ends outside of a frame and in a stable state. -/
theorem Settled.engineInv_answer (h : Settled s) (hl : stable s.lstate) (st : Status) :
    EngineInv (Machine.answer st s) := (h.answer st).engineInv (seqOk_answer st hl)

/-- `RESET` ends in `PoweredOff` (R260). -/
theorem engineInv_execReset (h : Settled s) (he : execReset s = .next t) : EngineInv t := by
  obtain rfl := Host.Outcome.next.inj he
  rw [resetBody_eq]
  exact ((h.start tagReset).pulsed.setLState .poweredOff).engineInv_answer (.inl rfl) .ok

/-- `INIT` before its busy-wait: the pulse and one frame. -/
theorem initStart_ran (s : State) : Ran (setLState .awaitingReady (start tagInit s).pulsed) (initStart s) := by
  unfold initStart
  rw [resetBody_eq]
  exact Ran.frameW 0x12 [] _

theorem initStart_seq (s : State) : ∃ n, (initStart s).2.seq = some { tag := tagInit, index := n } := by
  unfold initStart
  rw [resetBody_eq]
  obtain ⟨n, hn⟩ := frameW_seq 0x12 [] (setLState .awaitingReady (start tagInit s).pulsed)
  exact ⟨_, hn⟩

/-- `INIT` fails into `PoweredOff`, waits in `AwaitingReady`, or ends in `Idle` (R263). -/
theorem engineInv_execInit (h : Settled s) (he : execInit s = .next t) : EngineInv t := by
  obtain rfl := Host.Outcome.next.inj he
  have hr : Settled (initStart s).2 := ((h.start tagInit).pulsed.setLState .awaitingReady).ran (initStart_ran s)
  obtain ⟨n, hn⟩ := initStart_seq s
  split
  · exact hr.engineInv_waitTurn hn (.inl ⟨rfl, (initStart_ran s).lstate⟩)
  · exact (hr.initFail _).engineInv (seqOk_initFail _ _)

/-- `REFRESH` fails into `Idle`, waits in `Updating`, or ends in `Idle` (R265); the gate changes no state (R161). -/
theorem engineInv_execRefresh (h : Settled s) (hl : stable s.lstate) (he : execRefresh s = .next t) : EngineInv t := by
  obtain rfl := Host.Outcome.next.inj he
  by_cases hi : s.lstate = .idle
  · have hran := Ran.refreshBody (setLState .updating (start tagRefresh s))
    have hr := ((h.start tagRefresh).setLState .updating).ran hran
    obtain ⟨n, hn⟩ := refreshBody_seq (setLState .updating (start tagRefresh s))
    rw [gated_idle hi]
    dsimp only
    split
    · exact hr.engineInv_waitTurn hn (.inr (.inl ⟨rfl, hran.lstate⟩))
    · exact (hr.setLState .idle).engineInv_answer (.inr rfl) _
  · rw [gated_not_idle hi, ← answer_fail s (by decide)]
    exact h.engineInv_answer hl _

/-- `BUSY_WAIT` waits in the state it was presented in (R266). -/
theorem engineInv_execBusyWait (h : Settled s) (hl : stable s.lstate) (he : execBusyWait s = .next t) :
    EngineInv t := by
  obtain rfl := Host.Outcome.next.inj he
  exact (h.start tagBusyWait).engineInv_waitTurn rfl (.inr (.inr ⟨rfl, hl⟩))

/-- An instruction outside the lifecycle file runs frames and leaves `LSTATE` alone (R35). -/
theorem engineInv_of_not_lifecycle (h : Settled s) (hl : stable s.lstate) (hi : isLifecycle i = false)
    (he : exec i s = .next t) : EngineInv t := by
  rcases exec_cases hi he with ⟨-, -, rfl⟩ | ⟨r, hr, -, -, rfl⟩
  · rw [← answer_fail s (by decide)]
    exact h.engineInv_answer hl _
  · exact (h.ran hr).engineInv_answer (by rw [hr.lstate]; exact hl) r.1

/-- Every instruction run by an engine that waits for a request keeps the invariant. -/
theorem EngineInv.exec (h : EngineInv s) (hs : s.seq = none) (he : exec i s = .next t) : EngineInv t := by
  have hl : stable s.lstate := (seqOk_none hs).1 h.seq
  cases hi : isLifecycle i with
  | false => exact engineInv_of_not_lifecycle h.settled hl hi he
  | true =>
    rcases isLifecycle_cases hi with rfl | rfl | rfl | rfl
    · exact engineInv_execReset h.settled he
    · exact engineInv_execInit h.settled he
    · exact engineInv_execRefresh h.settled hl he
    · exact engineInv_execBusyWait h.settled hl he

/-- Taking an item changes the port and `REQ` only (R21). -/
theorem EngineInv.takeItem {j : Item} (h : EngineInv s) (hj : takeItem s = some (j, u)) : EngineInv u := by
  rcases takeItem_cases hj with ⟨_, _, -, -, rfl⟩ | ⟨_, _, -, -, rfl⟩ <;>
    exact ⟨h.cfg, h.lines, h.seq, h.ram, h.bus⟩

theorem takeItem_seq {j : Item} (hj : takeItem s = some (j, u)) : u.seq = s.seq := by
  rcases takeItem_cases hj with ⟨_, _, -, -, rfl⟩ | ⟨_, _, -, -, rfl⟩ <;> rfl

/-- Settles O51: a step is a turn of the busy-wait, nothing, or an instruction run on the item taken. -/
theorem engineInvariantKept : Obligations.EngineInvariantKept := by
  intro s t h hst
  obtain ⟨-, ⟨q, hs, -, rfl⟩ | ⟨-, -, rfl⟩ | ⟨hs, j, u, i, hu, -, he⟩⟩ := step_cases hst
  · exact h.waitTurn hs
  · exact h
  · exact (h.takeItem hu).exec ((takeItem_seq hu).trans hs) he

end Sys2Proof.Machine

/-! The shadow registers (O54): frames leave them alone, so what an instruction makes of them is what it writes itself
before its frames (R44) or after a range or counter frame (R42). -/

namespace Sys2Proof.Machine

variable {s t : State} {i : Instr} {code : Nat} {g : Byte} {r : Status × State}

/-! ### Frames and sequences of frames -/

@[simp] theorem frameW_sh (op : Byte) (d : List Byte) (s : State) : (frameW op d s).2.sh = s.sh := by
  rcases frameW_cases op d s with ⟨-, e⟩ | ⟨_, -, e⟩ | ⟨_, -, -, -, e⟩ <;> rw [e] <;> rfl

@[simp] theorem frameR_sh (op : Byte) (k : Nat) (s : State) : (frameR op k s).2.sh = s.sh := by
  rcases Nat.eq_zero_or_pos k with rfl | hk
  · rw [frameR_zero]; exact frameW_sh op [] s
  · rcases frameR_cases op s hk with ⟨-, e⟩ | ⟨_, -, e⟩ | ⟨_, -, -, e⟩ <;> rw [e] <;> rfl

theorem andThen_sh {k : State → Status × State} (h : ∀ u, (k u).2.sh = u.sh) : (andThen r k).2.sh = r.2.sh := by
  rcases andThen_cases r k with ⟨-, e⟩ | ⟨-, e⟩ <;> rw [e]
  exact h r.2

theorem gateScanBody_sh (a b : W16) (s : State) : (gateScanBody a b s).2.sh = s.sh :=
  (andThen_sh fun _ => frameW_sh _ _ _).trans (frameW_sh _ _ s)

theorem refreshBody_sh (s : State) : (refreshBody s).2.sh = s.sh :=
  (andThen_sh fun _ => (andThen_sh fun _ => frameW_sh _ _ _).trans (frameW_sh _ _ _)).trans (frameW_sh _ _ s)

theorem configureBody_sh (s : State) : (configureBody s).2.sh = s.sh := by
  unfold configureBody
  refine (andThen_sh fun u => ?_).trans (frameR_sh _ _ s)
  refine (andThen_sh fun u => ?_).trans (gateScanBody_sh _ _ u)
  refine (andThen_sh fun u => ?_).trans (frameW_sh _ _ u)
  refine (andThen_sh fun u => ?_).trans (frameW_sh _ _ u)
  exact (andThen_sh fun u => frameW_sh _ _ u).trans (frameW_sh _ _ u)

/-! ### The busy-wait -/

theorem initFail_sh (st : Status) (s : State) : (initFail st s).sh = s.sh := answer_sh _ st

theorem initConfigure_sh (s : State) : (initConfigure s).sh = s.sh := by
  have hc := configureBody_sh (setLState .configuring s)
  unfold initConfigure
  dsimp only
  split
  · exact (answer_sh _ _).trans hc
  · exact (initFail_sh _ _).trans hc

theorem afterWait_sh (tag : Byte) (s : State) : (afterWait tag s).sh = s.sh := by
  unfold afterWait
  split_ifs
  · exact initConfigure_sh s
  · exact answer_sh _ _
  · exact answer_sh _ _

/-- A turn of the busy-wait, and what follows it in any request, leaves the shadows alone. -/
theorem waitTurn_sh (tag : Byte) (s : State) : (waitTurn tag s).sh = s.sh := by
  rcases waitTurn_cases tag s with ⟨p, -, e⟩ | ⟨p, -, e⟩ <;> rw [e]
  exact afterWait_sh tag _

/-! ### Requests that invalidate every shadow (R44) -/

theorem execSend_sh {c : Byte} {d : List Byte} (h : execSend c d s = .next t) : t.sh = s.sh.invalidate := by
  obtain rfl := Host.Outcome.next.inj h
  exact (answer_sh _ _).trans (frameW_sh c d _)

theorem execReceive_sh {c : Byte} {k : Nat} (h : execReceive c k s = .next t) : t.sh = s.sh.invalidate := by
  obtain rfl := Host.Outcome.next.inj h
  exact (answer_sh _ _).trans (frameR_sh c k _)

theorem execReset_sh (h : execReset s = .next t) : t.sh = s.sh.invalidate := by
  obtain rfl := Host.Outcome.next.inj h
  rw [resetBody_eq]
  exact answer_sh _ .ok

theorem initStart_sh (s : State) : (initStart s).2.sh = s.sh.invalidate := by
  unfold initStart
  rw [resetBody_eq]
  exact frameW_sh 0x12 [] _

theorem execInit_sh (h : execInit s = .next t) : t.sh = s.sh.invalidate := by
  obtain rfl := Host.Outcome.next.inj h
  split
  · exact (waitTurn_sh _ _).trans (initStart_sh s)
  · exact (initFail_sh _ _).trans (initStart_sh s)

/-! ### Range and counter frames (R42, R224 to R226) -/

theorem frameXRange_sh (xs xe : Byte) (s : State) :
    (frameXRange xs xe s).2.sh = Shadow.afterX (frameXRange xs xe s).1 xs xe s.sh :=
  congrArg (Shadow.afterX _ xs xe) (frameW_sh 0x44 [xs, xe] s)

theorem frameYRange_sh (ys ye : W16) (s : State) :
    (frameYRange ys ye s).2.sh = Shadow.afterY (frameYRange ys ye s).1 ys ye s.sh :=
  congrArg (Shadow.afterY _ ys ye) (frameW_sh 0x45 (le16 ys ++ le16 ye) s)

theorem frameXCounter_sh (x : Byte) (s : State) :
    (frameXCounter x s).2.sh = Shadow.afterCx (frameXCounter x s).1 x s.sh :=
  congrArg (Shadow.afterCx _ x) (frameW_sh 0x4E [x] s)

theorem frameYCounter_sh (y : W16) (s : State) :
    (frameYCounter y s).2.sh = Shadow.afterCy (frameYCounter y s).1 y s.sh :=
  congrArg (Shadow.afterCy _ y) (frameW_sh 0x4F (le16 y) s)

theorem frameXRange_failed {xs xe : Byte} (h : (frameXRange xs xe s).1 = .transportError code) :
    (frameXRange xs xe s).2.sh = { s.sh with hv := false } := by rw [frameXRange_sh, h]; rfl

theorem frameYRange_failed {ys ye : W16} (h : (frameYRange ys ye s).1 = .transportError code) :
    (frameYRange ys ye s).2.sh = { s.sh with vv := false } := by rw [frameYRange_sh, h]; rfl

theorem frameXCounter_failed {x : Byte} (h : (frameXCounter x s).1 = .transportError code) :
    (frameXCounter x s).2.sh = { s.sh with cxv := false } := by rw [frameXCounter_sh, h]; rfl

theorem frameYCounter_failed {y : W16} (h : (frameYCounter y s).1 = .transportError code) :
    (frameYCounter y s).2.sh = { s.sh with cyv := false } := by rw [frameYCounter_sh, h]; rfl

/-- A failing `HRange` has passed its alignment check and sent its frame. -/
theorem hRange_failed {l w : Nat} (h : (hRange l w s).1 = .transportError code) :
    (hRange l w s).2.sh = { s.sh with hv := false } := by
  unfold hRange at h ⊢
  split at h
  · rw [if_pos ‹_›]; exact frameXRange_failed h
  · cases h

/-! ### What the end of an instruction shows of its frames -/

/-- What the answer of a body shows of it. -/
theorem answerOf_next (h : (Host.Outcome.next (answerOf r) : Host.Outcome State Fault Refusal) = .next t) :
    t.rsp.status = r.1 ∧ t.sh = r.2.sh := by
  obtain rfl := Host.Outcome.next.inj h
  exact ⟨answer_status _ _, answer_sh _ _⟩

/-- A gated request that ends with a transport's failure has passed the gate and run its body. -/
theorem gated_failed {body : State → Status × State}
    (h : (Host.Outcome.next (gated g (fun u => answerOf (body u)) s) : Host.Outcome State Fault Refusal) = .next t)
    (hc : t.rsp.status = .transportError code) :
    (body (start g s)).1 = .transportError code ∧ t.sh = (body (start g s)).2.sh := by
  by_cases hl : s.lstate = .idle
  · rw [gated_idle hl] at h
    obtain ⟨hst, hsh⟩ := answerOf_next h
    exact ⟨hst.symm.trans hc, hsh⟩
  · obtain rfl := Host.Outcome.next.inj h
    rw [gated_not_idle hl] at hc
    cases hc

/-! ### Instructions that leave every shadow alone (R41) -/

theorem answerOf_sh (h : (Host.Outcome.next (answerOf r) : Host.Outcome State Fault Refusal) = .next t)
    (hr : r.2.sh = s.sh) : t.sh = s.sh := (answerOf_next h).2.trans hr

/-- A gated request leaves the shadows alone where its body does. -/
theorem gated_sh {body : State → State}
    (h : (Host.Outcome.next (gated g body s) : Host.Outcome State Fault Refusal) = .next t)
    (hb : (body (start g s)).sh = (start g s).sh) : t.sh = s.sh := by
  obtain rfl := Host.Outcome.next.inj h
  by_cases hl : s.lstate = .idle
  · rw [gated_idle hl]; exact hb
  · rw [gated_not_idle hl]; rfl

theorem execRefresh_sh (h : execRefresh s = .next t) : t.sh = s.sh := by
  refine gated_sh h ?_
  have hr := refreshBody_sh (setLState .updating (start tagRefresh s))
  dsimp only
  split
  · exact (waitTurn_sh _ _).trans hr
  · exact (answer_sh _ _).trans hr

theorem execBusyWait_sh (h : execBusyWait s = .next t) : t.sh = s.sh := by
  obtain rfl := Host.Outcome.next.inj h
  exact waitTurn_sh _ _

/-- An instruction that sends no range, counter or bulk frame and is none of those of R44: its frames are others. -/
theorem exec_sh_of_not_tracksWindow (hi : tracksWindow i = false) (h : exec i s = .next t) : t.sh = s.sh := by
  cases i with
  | opRamXRange | opRamYRange | opRamXCounter | opRamYCounter | opWriteRamPrimary | opWriteRamSecondary | opReadRam
  | send | receive | setHRange | setVRange | setStartAddress | resetFullRange | writeRegion | readRegion | reset | init
  | printH | printV => cases hi
  | opGateScan | opGateVoltage | opSourceVoltage | opBoosterSoftStart | opGateScanStart | opDataEntryMode | opSwReset
  | opTempSensorSelect | opMasterActivation | opUpdateControl1 | opUpdateControl2 | opVcomVoltage | opBorder
  | opRamReadBank | opPatternSecondary | opPatternPrimary | opNop => exact answerOf_sh h (frameW_sh _ _ s)
  | opTempRead | opReadUserId => exact answerOf_sh h (frameR_sh _ _ s)
  | updateCtrl1 | updateCtrl2 | border | patternFillPrimary | patternFillSecondary | dataEntryMode | ramBankSelect
  | selectTempSensor | softwareReset | masterActivation | boosterSoftStart | nop =>
    exact gated_sh h ((answer_sh _ _).trans (frameW_sh _ _ _))
  | gateScanRange => exact gated_sh h ((answer_sh _ _).trans (gateScanBody_sh _ _ _))
  | readTemperature | readUserId => exact gated_sh h ((answer_sh _ _).trans (frameR_sh _ _ _))
  | refresh => exact execRefresh_sh h
  | busyWait => exact execBusyWait_sh h

/-- Settles O54: frames leave the shadows alone, so each instruction does to them what it writes itself. -/
theorem shadowRules : Obligations.ShadowRules := by
  intro i s t h
  refine ⟨?_, fun code hc => ⟨?_, ?_, ?_, ?_⟩, fun hi => exec_sh_of_not_tracksWindow hi h⟩
  · rintro (⟨c, d, rfl⟩ | ⟨c, k, rfl⟩ | rfl | rfl)
    · exact execSend_sh h
    · exact execReceive_sh h
    · exact execReset_sh h
    · exact execInit_sh h
  · rintro (⟨l, w, rfl⟩ | ⟨a, b, rfl⟩)
    · obtain ⟨hst, hsh⟩ := gated_failed h hc
      exact hsh.trans (hRange_failed hst)
    · obtain ⟨hst, hsh⟩ := answerOf_next h
      exact hsh.trans (frameXRange_failed (hst.symm.trans hc))
  · rintro (⟨l, w, rfl⟩ | ⟨a, b, rfl⟩)
    · obtain ⟨hst, hsh⟩ := gated_failed h hc
      exact hsh.trans (frameYRange_failed hst)
    · obtain ⟨hst, hsh⟩ := answerOf_next h
      exact hsh.trans (frameYRange_failed (hst.symm.trans hc))
  · rintro x rfl
    obtain ⟨hst, hsh⟩ := answerOf_next h
    exact hsh.trans (frameXCounter_failed (hst.symm.trans hc))
  · rintro y rfl
    obtain ⟨hst, hsh⟩ := answerOf_next h
    exact hsh.trans (frameYCounter_failed (hst.symm.trans hc))

end Sys2Proof.Machine

/-! Engine reset, the item a step runs, and the contracts whose breach is refused (O1, O3, O27, O46). -/

namespace Sys2Proof.Machine

/-! ### Reset and the step -/

theorem construct_wf {c : Cfg} (hc : c.wf = true) : State.construct c = some (State.resetWith c) := if_pos hc

/-- Settles O1: the fields of the reset state are read off its definition, and with its port empty the engine waits. -/
theorem engineReset : Obligations.EngineReset := fun _ hc =>
  ⟨construct_wf hc, rfl, rfl, rfl, rfl, rfl, rfl, rfl, rfl, rfl, step_nothing hc rfl rfl⟩

/-- Settles O3: taking the item latches a request and not a frame; the item taken is decoded and run. -/
theorem stepRunsDecodedItem : Obligations.StepRunsDecodedItem := by
  intro s j rest i hc hs hp hd
  cases j with
  | request f => rw [step_item hc hs (takeItem_request hp), runItem_ok hd]
  | wire f => rw [step_item hc hs (takeItem_wire hp), runItem_ok hd]

/-! ### Contracts of forming a request (R23, R126) -/

theorem bufferOk_some (n : Nat) (b : List Byte) : bufferOk n (some b) = true ↔ b.length = n := beq_iff_eq

/-- Settles O27: the contract holds only if both buffers that are present have the region's length. -/
theorem writeRegionContract : Obligations.WriteRegionContract := by
  intro s l t w h p q hbad
  have hno : ¬ writeRegionOk w h p q = true := by
    rw [writeRegionOk, Bool.and_eq_true]
    rintro ⟨hp, hq⟩
    rcases hbad with ⟨b, rfl, hb⟩ | ⟨b, rfl, hb⟩
    · exact hb ((bufferOk_some _ b).1 hp)
    · exact hb ((bufferOk_some _ b).1 hq)
  exact if_neg hno

theorem fontOk_iff (f : Font) :
    fontOk f = true ↔ f.table.length = 256 ∧ ∀ x ∈ f.table, x.length = glyphBytes f := by
  simp [fontOk]

theorem printRequest_noText {s : State} (h : s.cfg.hasText = false) (g : Byte) (f : Font) (body : State → State) :
    printRequest g f body s = .refused .textUnitAbsent := by simp [printRequest, h]

theorem printRequest_badFont {s : State} {f : Font} (h : s.cfg.hasText = true) (hf : ¬ fontOk f = true) (g : Byte)
    (body : State → State) : printRequest g f body s = .refused .glyphTable := by simp [printRequest, h, hf]

/-- Settles O46: both text requests make the two checks of `printRequest` before anything else. -/
theorem textContract : Obligations.TextContract := by
  intro s l t f str
  refine ⟨fun h => ⟨printRequest_noText h _ _ _, printRequest_noText h _ _ _⟩, fun h hbad => ?_⟩
  have hf : ¬ fontOk f = true := by
    rw [fontOk_iff]
    rintro ⟨hlen, hall⟩
    rcases hbad with hne | ⟨x, hx, hne⟩
    · exact hne hlen
    · exact hne (hall x hx)
  exact ⟨printRequest_badFont h hf _ _, printRequest_badFont h hf _ _⟩

end Sys2Proof.Machine

/-! The registers of the reference peer (O56), what makes it busy (O59), and the misaligned requests (O47). -/

namespace Sys2Proof.Machine

variable {s t : State} {p : Peer} {r : Status × State} {op : Byte} {d : List Byte}

/-! ### What a whole frame sets in the peer (R94, R98) -/

/-- A peer that is not busy takes a frame that fits its format and is not bulk as its opcode says. -/
theorem Peer.accept_of_fits (hb : p.busy = false) (hf : fitsWrite op d = true) (h24 : op ≠ 0x24) (h26 : op ≠ 0x26) :
    p.accept op d = p.acceptRegister op d := by
  have hok : (p.busy || !fitsWrite op d) = false := by rw [hb, hf]; rfl
  rw [Peer.accept, if_neg (by simp [hok]), if_neg h24, if_neg h26]

theorem Peer.accept_xRange (hb : p.busy = false) (a b : Byte) :
    p.accept 0x44 [a, b] = { p with regs := { p.regs with xs := a, xe := b } } :=
  Peer.accept_of_fits hb rfl (by decide) (by decide)

theorem Peer.accept_yRange (hb : p.busy = false) (a b : W16) :
    p.accept 0x45 (le16 a ++ le16 b) = { p with regs := { p.regs with ys := a, ye := b } } := by
  have h : p.accept 0x45 (le16 a ++ le16 b) =
      { p with regs := { p.regs with ys := ofLoHi (lo8 a) (hi8 a), ye := ofLoHi (lo8 b) (hi8 b) } } :=
    Peer.accept_of_fits hb rfl (by decide) (by decide)
  rw [h, ofLoHi_lo8_hi8, ofLoHi_lo8_hi8]

theorem Peer.accept_xCounter (hb : p.busy = false) (x : Byte) :
    p.accept 0x4E [x] = { p with regs := { p.regs with cx := x } } :=
  Peer.accept_of_fits hb rfl (by decide) (by decide)

theorem Peer.accept_yCounter (hb : p.busy = false) (y : W16) :
    p.accept 0x4F (le16 y) = { p with regs := { p.regs with cy := y } } := by
  have h : p.accept 0x4F (le16 y) = { p with regs := { p.regs with cy := ofLoHi (lo8 y) (hi8 y) } } :=
    Peer.accept_of_fits hb rfl (by decide) (by decide)
  rw [h, ofLoHi_lo8_hi8]

theorem Peer.accept_mode (hb : p.busy = false) (m : Byte) :
    p.accept 0x11 [m] = { p with regs := { p.regs with dem := m.setWidth 3 } } :=
  Peer.accept_of_fits hb rfl (by decide) (by decide)

theorem Peer.accept_bank (hb : p.busy = false) (k : Byte) :
    p.accept 0x41 [k] = { p with regs := { p.regs with bank := bankOfBit (k.getLsbD 0) } } :=
  Peer.accept_of_fits hb rfl (by decide) (by decide)

theorem Peer.accept_swReset (hb : p.busy = false) : p.accept 0x12 [] = p.softReset :=
  Peer.accept_of_fits hb rfl (by decide) (by decide)

theorem Peer.accept_activation (hb : p.busy = false) : p.accept 0x20 [] = { p with busy := true } :=
  Peer.accept_of_fits hb rfl (by decide) (by decide)

theorem Peer.accept_patternPrimary (hb : p.busy = false) (b : Byte) :
    p.accept 0x47 [b] = { p with busy := true, ram := ramForget .black p.ram } :=
  Peer.accept_of_fits hb rfl (by decide) (by decide)

theorem Peer.accept_patternSecondary (hb : p.busy = false) (b : Byte) :
    p.accept 0x46 [b] = { p with busy := true, ram := ramForget .red p.ram } :=
  Peer.accept_of_fits hb rfl (by decide) (by decide)

/-! ### The peer after an instruction of one frame -/

theorem wrote_peer (hr : s.env.refPeer = true) (op : Byte) (d : List Byte) :
    (s.wrote op d).peer = s.peer.accept op d := if_pos hr

/-- The answer of a request leaves the peer as its frames did. -/
theorem answerOf_next_peer (h : (Host.Outcome.next (answerOf r) : Host.Outcome State Fault Refusal) = .next t) :
    t.peer = r.2.peer := by
  obtain rfl := Host.Outcome.next.inj h
  exact answer_peer _ _

/-- An attached peer after an instruction that is one whole frame. -/
theorem answerOf_frameW_peer (op : Byte) (d : List Byte) (hr : s.env.refPeer = true)
    (hok : transfersOk (transfersOf d) s)
    (h : (Host.Outcome.next (answerOf r) : Host.Outcome State Fault Refusal) = .next t)
    (hf : r.2.peer = (frameW op d s).2.peer) : t.peer = s.peer.accept op d := by
  rw [answerOf_next_peer h, hf, frameW_ok hok]
  exact wrote_peer hr op d

/-- Settles O56: each opcode is one whole frame, which the peer takes as R94 says. -/
theorem peerRegisterFrames : Obligations.PeerRegisterFrames := by
  intro s hr hb hok
  refine ⟨fun a b t h => ?_, fun a b t h => ?_, fun x t h => ?_, fun y t h => ?_, fun m t h => ?_, fun k t h => ?_⟩
  · exact (answerOf_frameW_peer 0x44 [a, b] hr hok h rfl).trans (Peer.accept_xRange hb a b)
  · exact (answerOf_frameW_peer 0x45 (le16 a ++ le16 b) hr hok h rfl).trans (Peer.accept_yRange hb a b)
  · exact (answerOf_frameW_peer 0x4E [x] hr hok h rfl).trans (Peer.accept_xCounter hb x)
  · exact (answerOf_frameW_peer 0x4F (le16 y) hr hok h rfl).trans (Peer.accept_yCounter hb y)
  · exact (answerOf_frameW_peer 0x11 [m] hr hok h rfl).trans (Peer.accept_mode hb m)
  · exact (answerOf_frameW_peer 0x41 [k] hr hok h rfl).trans (Peer.accept_bank hb k)

/-! ### Busy (R98, R81) -/

/-- The line of an attached peer that is not busy reads deasserted, whatever the environment answers. -/
theorem busyLevel_peer_free (hr : s.env.refPeer = true) (hb : s.peer.busy = false) : busyLevel s = false := by
  simp [busyLevel, hr, hb]

/-- A poll that reads deasserted changes nothing of a peer that is not busy. -/
theorem polledReady_peer (hb : s.peer.busy = false) : s.polledReady.peer = s.peer := by
  have h : ({ s.peer with busy := false } : Peer) = s.peer := by rw [← hb]
  simp [State.polledReady, h]

/-- A `BUSY_WAIT` whose first poll reads deasserted ends there. -/
theorem execBusyWait_ready (h : busyLevel s = false) :
    exec .busyWait s = .next (answer .ok (start tagBusyWait s).polledReady) :=
  congrArg Host.Outcome.next (waitTurn_ready (s := start tagBusyWait s) h tagBusyWait)

/-- Settles O59: the four opcodes are one whole frame each, and the poll of `BUSY_WAIT` reads deasserted. -/
theorem peerBusy : Obligations.PeerBusy := by
  intro s t hr hb
  refine ⟨fun hok h => ?_, fun hok h => ?_, fun b hok h => ?_, fun b hok h => ?_, fun h => ?_⟩
  · have hp : t.peer = s.peer.softReset :=
      (answerOf_frameW_peer 0x12 [] hr hok h rfl).trans (Peer.accept_swReset hb)
    exact hp ▸ ⟨rfl, rfl⟩
  · exact (answerOf_frameW_peer 0x20 [] hr hok h rfl).trans (Peer.accept_activation hb)
  · exact (answerOf_frameW_peer 0x47 [b] hr hok h rfl).trans (Peer.accept_patternPrimary hb b)
  · exact (answerOf_frameW_peer 0x46 [b] hr hok h rfl).trans (Peer.accept_patternSecondary hb b)
  · rw [execBusyWait_ready (busyLevel_peer_free hr hb)] at h
    obtain rfl := Host.Outcome.next.inj h
    exact ⟨answer_seq _ _, (answer_peer _ _).trans (polledReady_peer (s := start tagBusyWait s) hb)⟩

/-! ### Misaligned requests (R76, R330) -/

/-- A gated request whose body finds its operands misaligned answers `AlignmentError` and has made no event. -/
theorem gated_misaligned {g : Byte} {body : State → Status × State} (hl : s.lstate = .idle)
    (h : ∀ u, body u = (.alignmentError, u)) :
    (.next (gated g (fun u => answerOf (body u)) s) : Host.Outcome State Fault Refusal) =
      .next (s.answeredFail .alignmentError) := by
  rw [gated_idle hl, h]; exact congrArg Host.Outcome.next (answer_fail (start g s) Status.noConfusion)

theorem not_aligned_and_aligned {l w : Nat} (h : l % 8 ≠ 0 ∨ w % 8 ≠ 0) : ¬ (aligned l = true ∧ aligned w = true) := by
  rw [aligned_iff, aligned_iff]; omega

/-- Settles O47: each body checks the alignment before its first frame. -/
theorem misalignedAnswers : Obligations.MisalignedAnswers := by
  intro s hl
  refine ⟨fun l w h => gated_misaligned hl (hRange_misaligned h),
    fun x y h => gated_misaligned hl (startAddr_misaligned h y), fun l t w h p q hok hm => ?_, fun l t w h a b hm =>
    gated_misaligned hl fun u => if_neg (not_aligned_and_aligned hm)⟩
  exact (if_pos hok).trans (gated_misaligned hl fun u => if_neg (not_aligned_and_aligned hm))

end Sys2Proof.Machine

/-! How the address counter of the reference peer walks its window (O57, O58). -/

namespace Sys2Proof.Machine

variable {r : PeerRegs}

/-! ### One advance (R96) -/

theorem inWindow_iff (r : PeerRegs) :
    inWindow r = true ↔ r.xs.toNat ≤ r.cx.toNat ∧ r.cx.toNat ≤ r.xe.toNat ∧
      r.ys.toNat ≤ r.cy.toNat ∧ r.cy.toNat ≤ r.ye.toNat := by
  simp only [inWindow, Bool.and_eq_true, decide_eq_true_eq, BitVec.le_def]
  tauto

/-- A coordinate that is below another one does not wrap when it steps up. -/
theorem toNat_succ_of_lt {n : Nat} {v e : BitVec n} (h : v.toNat < e.toNat) : (v + 1).toNat = v.toNat + 1 := by
  have he := e.isLt
  have h1 : 1 < 2 ^ n := by omega
  show (v + 1#n).toNat = v.toNat + 1
  rw [BitVec.toNat_add, BitVec.toNat_ofNat, Nat.mod_eq_of_lt h1, Nat.mod_eq_of_lt (by omega)]

/-- In a window, the coordinate after an incrementing step: back at the start from the end, one further elsewhere. -/
theorem wrap_mem_window {n : Nat} {a e v : BitVec n} (h1 : a.toNat ≤ v.toNat) (h2 : v.toNat ≤ e.toNat) :
    a.toNat ≤ (if v = e then a else v + 1).toNat ∧ (if v = e then a else v + 1).toNat ≤ e.toNat := by
  split
  · omega
  · rename_i hne
    have hlt : v.toNat < e.toNat := lt_of_le_of_ne h2 fun h => hne (BitVec.eq_of_toNat_eq h)
    rw [toNat_succ_of_lt hlt]; omega

/-- An advance where both directions increment: the coordinate that moves first wraps, the other moves when it does. -/
theorem advance_increment (hx : r.dem.getLsbD 0 = true) (hy : r.dem.getLsbD 1 = true) :
    advance r =
      if r.dem.getLsbD 2 then
        { r with cy := if r.cy = r.ye then r.ys else r.cy + 1
                 cx := if r.cy = r.ye then (if r.cx = r.xe then r.xs else r.cx + 1) else r.cx }
      else
        { r with cx := if r.cx = r.xe then r.xs else r.cx + 1
                 cy := if r.cx = r.xe then (if r.cy = r.ye then r.ys else r.cy + 1) else r.cy } := by
  simp only [advance, stepX, stepY, hx, hy, if_true]
  split_ifs <;> rfl

/-- Settles O57: each coordinate is unchanged or has made one step with its wrap. -/
theorem advanceStaysInWindow : Obligations.AdvanceStaysInWindow := by
  intro r hx hy hw
  obtain ⟨hx1, hx2, hy1, hy2⟩ := (inWindow_iff r).1 hw
  obtain ⟨wx1, wx2⟩ := wrap_mem_window hx1 hx2
  obtain ⟨wy1, wy2⟩ := wrap_mem_window hy1 hy2
  rw [inWindow_iff, advance_xs, advance_xe, advance_ys, advance_ye, advance_increment hx hy]
  by_cases hm : r.dem.getLsbD 2 = true
  · rw [if_pos hm]
    refine ⟨?_, ?_, wy1, wy2⟩ <;> dsimp only <;> split_ifs at wx1 wx2 ⊢ <;> assumption
  · rw [if_neg hm]
    refine ⟨wx1, wx2, ?_, ?_⟩ <;> dsimp only <;> split_ifs at wy1 wy2 ⊢ <;> assumption

/-! ### Many advances -/

/-- A register that one advance keeps, any number of them keeps. -/
theorem iterate_advance_field {α : Type} {f : PeerRegs → α} (h : ∀ r, f (advance r) = f r) (i : Nat) (r : PeerRegs) :
    f (advance^[i] r) = f r := by
  induction i generalizing r with
  | zero => rfl
  | succ i ih => rw [Function.iterate_succ_apply, ih, h]

/-- The next index of a window of `w` columns is in the next row where the row is full, and in the next column
elsewhere. -/
theorem succ_mod_div {w : Nat} (hw : 0 < w) (i : Nat) :
    (i % w + 1 = w ∧ (i + 1) % w = 0 ∧ (i + 1) / w = i / w + 1) ∨
      (i % w + 1 < w ∧ (i + 1) % w = i % w + 1 ∧ (i + 1) / w = i / w) := by
  have hi := Nat.mod_add_div i w
  rcases Nat.lt_or_ge (i % w + 1) w with hlt | hge
  · obtain ⟨hd, hm⟩ := (Nat.div_mod_unique hw).2 (⟨by omega, hlt⟩ : (i % w + 1) + w * (i / w) = i + 1 ∧ i % w + 1 < w)
    exact .inr ⟨hlt, hm, hd⟩
  · have hfull : i % w + 1 = w := le_antisymm (Nat.mod_lt i hw) hge
    have hrow : 0 + w * (i / w + 1) = i + 1 := by rw [Nat.mul_succ]; omega
    obtain ⟨hd, hm⟩ := (Nat.div_mod_unique hw).2 (⟨hrow, hw⟩ : 0 + w * (i / w + 1) = i + 1 ∧ 0 < w)
    exact .inl ⟨hfull, hm, hd⟩

/-- Settles O58, by induction on the number of advances: a full row wraps to the next one, which is still inside the
window. -/
theorem advanceRowMajor : Obligations.AdvanceRowMajor := by
  intro r i hdem hcx hcy hX hY hi
  rw [BitVec.le_def] at hX hY
  induction i with
  | zero => simp [hcx, hcy]
  | succ i ih =>
    obtain ⟨ihx, ihy⟩ := ih (by omega)
    have hw : 0 < r.xe.toNat - r.xs.toNat + 1 := by omega
    have hrow : (i + 1) / (r.xe.toNat - r.xs.toNat + 1) < r.ye.toNat - r.ys.toNat + 1 := Nat.div_lt_of_lt_mul hi
    have hxs := iterate_advance_field advance_xs i r
    have hxe := iterate_advance_field advance_xe i r
    have hye := iterate_advance_field advance_ye i r
    have hd : (advance^[i] r).dem = 3 := (iterate_advance_field advance_dem i r).trans hdem
    rw [Function.iterate_succ_apply', advance_increment (by rw [hd]; decide) (by rw [hd]; decide),
      if_neg (by rw [hd]; decide), hxs, hxe, hye]
    dsimp only
    rcases succ_mod_div hw i with ⟨hfull, hmod, hdiv⟩ | ⟨hlt, hmod, hdiv⟩
    · have hend : (advance^[i] r).cx = r.xe := BitVec.eq_of_toNat_eq (by omega)
      have hinside : (advance^[i] r).cy.toNat < r.ye.toNat := by omega
      have hne : (advance^[i] r).cy ≠ r.ye := fun h => by rw [h] at hinside; omega
      rw [if_pos hend, if_pos hend, if_neg hne, toNat_succ_of_lt hinside]
      omega
    · have hinside : (advance^[i] r).cx.toNat < r.xe.toNat := by omega
      have hne : (advance^[i] r).cx ≠ r.xe := fun h => by rw [h] at hinside; omega
      rw [if_neg hne, if_neg hne, toNat_succ_of_lt hinside]
      omega

end Sys2Proof.Machine

/-! What a bulk transfer does to the display RAM of the reference peer while its counter walks the window (R95, R97), and
with it what the region transfers store (O31) and give back (O30). -/

namespace Sys2Proof.Machine

variable {s : State} {p : Peer} {r : PeerRegs} {m : List Host.Cell} {plane : Bank} {b : List Byte} {l t w h : W16}

/-! ### The walk of the counter -/

/-- The counter stands inside the window and both directions increment, so that every advance keeps it inside. -/
structure Walks (r : PeerRegs) : Prop where
  x      : r.dem.getLsbD 0 = true
  y      : r.dem.getLsbD 1 = true
  window : inWindow r = true

theorem Walks.advance (h : Walks r) : Walks (advance r) where
  x := by rw [advance_dem]; exact h.x
  y := by rw [advance_dem]; exact h.y
  window := advanceStaysInWindow r h.x h.y h.window

/-- The address at which the counter stands after `i` advances. -/
def walkAddr (plane : Bank) (r : PeerRegs) (i : Nat) : Nat := ramAddr plane (advance^[i] r).cx (advance^[i] r).cy

theorem walkAddr_zero (plane : Bank) (r : PeerRegs) : walkAddr plane r 0 = ramAddr plane r.cx r.cy := rfl

theorem walkAddr_succ (plane : Bank) (r : PeerRegs) (i : Nat) :
    walkAddr plane r (i + 1) = walkAddr plane (advance r) i := rfl

/-! ### Bulk writes (R95) -/

/-- The RAM after bytes are stored one after another along the walk of the counter. -/
def storeWalk (plane : Bank) : List Byte → PeerRegs → List Host.Cell → List Host.Cell
  | [], _, m => m
  | b :: bs, r, m => storeWalk plane bs (advance r) (ramWrite m (ramAddr plane r.cx r.cy) b)

theorem Peer.writeBytes_walk (plane : Bank) (b : List Byte) {p : Peer} (h : Walks p.regs) :
    p.writeBytes plane b = { p with ram := storeWalk plane b p.regs p.ram, regs := Machine.advance^[b.length] p.regs } := by
  induction b generalizing p with
  | nil => rfl
  | cons x b ih =>
    have hx : p.writeByte plane x =
        { p with ram := ramWrite p.ram (ramAddr plane p.regs.cx p.regs.cy) x, regs := Machine.advance p.regs } :=
      if_pos h.window
    rw [Peer.writeBytes, hx, ih h.advance]
    rfl

/-- An address that the walk does not reach reads as before. -/
theorem ramRead_storeWalk_other {a : Nat} (h : ∀ i < b.length, a ≠ walkAddr plane r i) :
    ramRead (storeWalk plane b r m) a = ramRead m a := by
  induction b generalizing r m with
  | nil => rfl
  | cons x b ih =>
    have hrest : ∀ i < b.length, a ≠ walkAddr plane (advance r) i := fun i hi => h (i + 1) (Nat.succ_lt_succ hi)
    have hhere : a ≠ ramAddr plane r.cx r.cy := h 0 (Nat.succ_pos _)
    rw [storeWalk, ih hrest, ramRead_ramWrite_other m x hhere]

/-- A walk that comes to no address twice leaves each byte where it stored it. -/
theorem ramRead_storeWalk_at
    (hinj : ∀ i < b.length, ∀ j < b.length, walkAddr plane r i = walkAddr plane r j → i = j) {i : Nat}
    (hi : i < b.length) : ramRead (storeWalk plane b r m) (walkAddr plane r i) = b[i]? := by
  induction b generalizing r m i with
  | nil => exact absurd hi (Nat.not_lt_zero i)
  | cons x b ih =>
    cases i with
    | zero =>
      have hlater : ∀ j < b.length, walkAddr plane r 0 ≠ walkAddr plane (advance r) j := fun j hj he =>
        Nat.succ_ne_zero j (hinj (j + 1) (Nat.succ_lt_succ hj) 0 hi he.symm)
      rw [storeWalk, ramRead_storeWalk_other hlater, walkAddr_zero, ramRead_ramWrite_same, List.getElem?_cons_zero]
    | succ i =>
      have hrest : ∀ i < b.length, ∀ j < b.length, walkAddr plane (advance r) i = walkAddr plane (advance r) j → i = j :=
        fun i hi j hj he => Nat.succ.inj (hinj (i + 1) (Nat.succ_lt_succ hi) (j + 1) (Nat.succ_lt_succ hj) he)
      rw [storeWalk, walkAddr_succ, ih hrest (Nat.lt_of_succ_lt_succ hi), List.getElem?_cons_succ]

/-! ### Bulk reads (R97) -/

/-- A read along a walk of known bytes returns them, whatever the environment offers, and only moves the counter. -/
theorem Peer.readBytes_walk {raws : List Byte} (hlen : raws.length = b.length) (hw : Walks p.regs)
    (hknown : ∀ i < b.length, ramRead p.ram (walkAddr p.regs.bank p.regs i) = b[i]?) :
    p.readBytes raws = (b, { p with regs := Machine.advance^[b.length] p.regs }) := by
  induction b generalizing raws p with
  | nil => rw [List.length_eq_zero_iff.mp hlen]; rfl
  | cons x b ih =>
    obtain ⟨raw, raws, rfl⟩ := List.exists_cons_of_length_eq_add_one hlen
    have hx := Peer.readByte_known (raw := raw) hw.window (hknown 0 (Nat.succ_pos _))
    have hrest : ∀ i < b.length, ramRead p.ram (walkAddr (Machine.advance p.regs).bank (Machine.advance p.regs) i) = b[i]? :=
      fun i hi => by rw [advance_bank]; exact hknown (i + 1) (Nat.succ_lt_succ hi)
    rw [Peer.readBytes, hx]
    dsimp only
    rw [ih (p := { p with regs := Machine.advance p.regs }) (Nat.succ.inj hlen) hw.advance hrest]
    rfl

/-- The read of the RAM on a peer that is not busy: after the two dummy bytes come the known ones. -/
theorem Peer.supply_walk {raws : List Byte} (hb : p.busy = false) (hlen : raws.length = 2 + b.length) (hw : Walks p.regs)
    (hknown : ∀ i < b.length, ramRead p.ram (walkAddr p.regs.bank p.regs i) = b[i]?) :
    p.supply 0x27 raws = (raws.take 2 ++ b, { p with regs := Machine.advance^[b.length] p.regs }) := by
  have hfree : ¬ (p.busy || !fitsRead 0x27 raws.length) = true := by rw [hb]; exact Bool.false_ne_true
  have hdata : p.readBytes (raws.drop Config.dummyReadBytes) = (b, { p with regs := Machine.advance^[b.length] p.regs }) :=
    Peer.readBytes_walk (by rw [List.length_drop, hlen]; exact Nat.add_sub_cancel_left 2 _) hw hknown
  rw [Peer.supply, if_neg hfree, if_pos rfl, Peer.readBulk, if_pos hw.window, hdata]
  rfl

/-! ### The window of a region (R64, R99) -/

/-- The registers after the range and counter frames of a region. -/
def regionRegs (l t w h : W16) (r : PeerRegs) : PeerRegs :=
  { r with
    xs := xsField l.toNat, xe := xeField l.toNat w.toNat, ys := ysField t.toNat, ye := yeField t.toNat h.toNat
    cx := cxField l.toNat, cy := t }

/-- The address of byte `i` of a region's buffer: rows of `w div 8` bytes from the region's corner. -/
def regionAddr (plane : Bank) (l t w : W16) (i : Nat) : Nat :=
  ramAddr plane (cxField l.toNat + BitVec.ofNat 8 (i % (w.toNat / 8))) (t + BitVec.ofNat 16 (i / (w.toNat / 8)))

/-- The numbers that the window of a fitting region holds. -/
theorem regionRegs_toNat (hf : regionFits l t w h) (r : PeerRegs) :
    (regionRegs l t w h r).xs.toNat = l.toNat / 8 ∧ (regionRegs l t w h r).xe.toNat = l.toNat / 8 + w.toNat / 8 - 1 ∧
      (regionRegs l t w h r).ys.toNat = t.toNat ∧ (regionRegs l t w h r).ye.toNat = t.toNat + h.toNat - 1 := by
  obtain ⟨hl8, hw8, hw, hh, hx, hy⟩ := hf
  have hlw : (l.toNat + w.toNat) / 8 = l.toNat / 8 + w.toNat / 8 := by omega
  refine ⟨?_, ?_, ?_, ?_⟩
  · simp only [regionRegs, xsField, trunc8, BitVec.toNat_ofInt]; omega
  · simp only [regionRegs, xeField, trunc8, BitVec.toNat_ofInt]; omega
  · simp only [regionRegs, ysField_toNat]
  · simp only [regionRegs, yeField, trunc16, BitVec.toNat_ofInt]; omega

theorem regionRegs_walks (hf : regionFits l t w h) (hd : r.dem = 3) : Walks (regionRegs l t w h r) where
  x := by rw [show (regionRegs l t w h r).dem = 3 from hd]; decide
  y := by rw [show (regionRegs l t w h r).dem = 3 from hd]; decide
  window := by
    obtain ⟨hxs, hxe, hys, hye⟩ := regionRegs_toNat hf r
    have hcx : (regionRegs l t w h r).cx.toNat = l.toNat / 8 := hxs
    have hcy : (regionRegs l t w h r).cy.toNat = t.toNat := rfl
    obtain ⟨-, -, hw, hh, -, -⟩ := hf
    rw [inWindow_iff, hcx, hcy, hxs, hxe, hys, hye]
    omega

/-- Where the counter stands after `i` bytes of a fitting region (R64). -/
theorem regionRegs_iterate (hf : regionFits l t w h) (hd : r.dem = 3) {i : Nat} (hi : i < w.toNat / 8 * h.toNat) :
    (advance^[i] (regionRegs l t w h r)).cx.toNat = l.toNat / 8 + i % (w.toNat / 8) ∧
      (advance^[i] (regionRegs l t w h r)).cy.toNat = t.toNat + i / (w.toNat / 8) := by
  obtain ⟨hxs, hxe, hys, hye⟩ := regionRegs_toNat hf r
  obtain ⟨-, -, hw, hh, -, -⟩ := hf
  have hcols : (regionRegs l t w h r).xe.toNat - (regionRegs l t w h r).xs.toNat + 1 = w.toNat / 8 := by omega
  have hrows : (regionRegs l t w h r).ye.toNat - (regionRegs l t w h r).ys.toNat + 1 = h.toNat := by omega
  have hrm := advanceRowMajor (regionRegs l t w h r) i hd rfl (ysField_toNat t).symm
    (by rw [BitVec.le_def]; omega) (by rw [BitVec.le_def]; omega) (by rw [hcols, hrows]; exact hi)
  rwa [hcols, hxs, hys] at hrm

/-- The walk over a fitting region comes to the addresses of its buffer in order (R64, R96). -/
theorem walkAddr_region (hf : regionFits l t w h) (hd : r.dem = 3) {i : Nat} (hi : i < w.toNat / 8 * h.toNat) :
    walkAddr plane (regionRegs l t w h r) i = regionAddr plane l t w i := by
  obtain ⟨hcx, hcy⟩ := regionRegs_iterate hf hd hi
  have hx0 : (cxField l.toNat).toNat = l.toNat / 8 := (regionRegs_toNat hf r).1
  have hrow : i / (w.toNat / 8) < h.toNat := Nat.div_lt_of_lt_mul hi
  obtain ⟨hl8, hw8, hw, hh, hx, hy⟩ := hf
  have hcol : i % (w.toNat / 8) < w.toNat / 8 := Nat.mod_lt i (by omega)
  have ex : (advance^[i] (regionRegs l t w h r)).cx = cxField l.toNat + BitVec.ofNat 8 (i % (w.toNat / 8)) := by
    apply BitVec.eq_of_toNat_eq
    rw [hcx, BitVec.toNat_add, BitVec.toNat_ofNat, hx0]; omega
  have ey : (advance^[i] (regionRegs l t w h r)).cy = t + BitVec.ofNat 16 (i / (w.toNat / 8)) := by
    apply BitVec.eq_of_toNat_eq
    rw [hcy, BitVec.toNat_add, BitVec.toNat_ofNat]; omega
  rw [walkAddr, ex, ey, regionAddr]

/-- The walk over a fitting region comes to no address twice. -/
theorem walkAddr_region_inj (hf : regionFits l t w h) (hd : r.dem = 3) {i j : Nat} (hi : i < w.toNat / 8 * h.toNat)
    (hj : j < w.toNat / 8 * h.toNat)
    (he : walkAddr plane (regionRegs l t w h r) i = walkAddr plane (regionRegs l t w h r) j) : i = j := by
  obtain ⟨-, ex, ey⟩ := ramAddr_inj he
  obtain ⟨hxi, hyi⟩ := regionRegs_iterate hf hd hi
  obtain ⟨hxj, hyj⟩ := regionRegs_iterate hf hd hj
  have hmod : i % (w.toNat / 8) = j % (w.toNat / 8) := by rw [ex] at hxi; omega
  have hdiv : i / (w.toNat / 8) = j / (w.toNat / 8) := by rw [ey] at hyi; omega
  rw [← Nat.mod_add_div i (w.toNat / 8), hmod, hdiv, Nat.mod_add_div]

/-- The addresses of a buffer are those of its region. -/
theorem regionAddr_inRegion (hf : regionFits l t w h) (plane : Bank) {i : Nat} (hi : i < w.toNat / 8 * h.toNat) :
    inRegion plane l t w h (regionAddr plane l t w i) := by
  obtain ⟨-, -, hw, -⟩ := hf
  exact ⟨i % (w.toNat / 8), i / (w.toNat / 8), Nat.mod_lt i (by omega), Nat.div_lt_of_lt_mul hi, rfl⟩

end Sys2Proof.Machine

/-! The region transfers on the reference peer: what `WRITE_REGION` of one plane stores (O31), and that `READ_REGION` of it
gives the buffer back (O30). -/

namespace Sys2Proof.Machine

variable {s : State} {p : Peer} {plane : Bank} {b : List Byte} {l t w h : W16}

/-! ### The peer after whole frames -/

/-- The peer after several whole write frames, in order. -/
def Peer.acceptAll (fs : List Frame) (p : Peer) : Peer := fs.foldl (fun p f => p.accept f.1 f.2) p

theorem wroteAll_peer (hr : s.env.refPeer = true) (fs : List Frame) : (s.wroteAll fs).peer = s.peer.acceptAll fs := by
  induction fs generalizing s with
  | nil => rfl
  | cons f fs ih =>
    rw [wroteAll_cons, ih (s := s.wrote f.1 f.2) hr, wrote_peer hr]
    rfl

theorem Peer.acceptAll_nil (p : Peer) : p.acceptAll [] = p := rfl

theorem Peer.acceptAll_cons (op : Byte) (d : List Byte) (fs : List Frame) (p : Peer) :
    p.acceptAll ((op, d) :: fs) = (p.accept op d).acceptAll fs := rfl

theorem Peer.acceptAll_append (fs gs : List Frame) (p : Peer) :
    p.acceptAll (fs ++ gs) = (p.acceptAll fs).acceptAll gs := List.foldl_append

/-- The two range frames of a region set the window. -/
theorem Peer.acceptAll_window (hb : p.busy = false) (l t : W16) (w h : Nat) :
    p.acceptAll (windowFrames l t w h) = { p with regs := { p.regs with
      xs := xsField l.toNat, xe := xeField l.toNat w, ys := ysField t.toNat, ye := yeField t.toNat h } } := by
  rw [windowFrames, Peer.acceptAll_cons, Peer.acceptAll_cons, Peer.acceptAll_nil, Peer.accept_xRange hb, Peer.accept_yRange]
  exact hb

/-- The two counter frames of a start address set the counter. -/
theorem Peer.acceptAll_counter (hb : p.busy = false) (x y : W16) :
    p.acceptAll (counterFrames x y) = { p with regs := { p.regs with cx := cxField x.toNat, cy := y } } := by
  rw [counterFrames, Peer.acceptAll_cons, Peer.acceptAll_cons, Peer.acceptAll_nil, Peer.accept_xCounter hb,
    Peer.accept_yCounter]
  exact hb

/-! ### `WRITE_REGION` of one plane -/

/-- The opcode of a bulk write to a plane (R95). -/
def planeOpcode : Bank → Byte
  | .black => 0x24
  | .red => 0x26

/-- The buffer of plane `q` in a request that names `plane` only. -/
def bufferOf (plane q : Bank) (b : List Byte) : Option (List Byte) := if q = plane then some b else none

theorem Peer.accept_bulk (hb : p.busy = false) (plane : Bank) (b : List Byte) :
    p.accept (planeOpcode plane) b = p.writeBulk plane b := by
  have hfree : ¬ (p.busy || !fitsWrite (planeOpcode plane) b) = true := by
    rw [hb]; cases plane <;> exact Bool.false_ne_true
  rw [Peer.accept, if_neg hfree]
  cases plane <;> rfl

/-- A plane's frames look at no shadow. -/
theorem writePlane_withShadow {c : Byte} {q : Option (List Byte)} {sh : Shadow} (hl : l.toNat % 8 = 0)
    (hok : transfersOk (transfersOfAll (planeFrames c l t q)) s) :
    writePlane c q l t { s with sh := sh } =
      (.ok, { s.wroteAll (planeFrames c l t q) with sh := if q = none then sh else sh.moved l t }) := by
  have hs : transfersOk (transfersOfAll (planeFrames c l t q)) { s with sh := sh } := hok
  rw [writePlane_ok hl hs, wroteAll_withShadow]

/-- The body of `WRITE_REGION` when every transfer is `Ok` (R241). -/
theorem writeRegionBody_ok {p q : Option (List Byte)} (hl : l.toNat % 8 = 0) (hw : w.toNat % 8 = 0)
    (hok : transfersOk (transfersOfAll (regionFrames l t w h p q)) s) :
    writeRegionBody l t w h p q s = (.ok, { s.wroteAll (regionFrames l t w h p q) with
      sh := if p = none ∧ q = none then s.sh.window l t w.toNat h.toNat
        else (s.sh.window l t w.toNat h.toNat).moved l t }) := by
  rw [regionFrames, transfersOfAll_append, transfersOfAll_append, transfersOfAll_window] at hok
  have hp : transfersOk (transfersOfAll (planeFrames 0x24 l t p))
      (s.wroteAll (windowFrames l t w.toNat h.toNat)) :=
    transfersOk_wroteAll (transfersOk_mono (Nat.le_add_right _ _) hok)
  have hq : transfersOk (transfersOfAll (planeFrames 0x26 l t q))
      ((s.wroteAll (windowFrames l t w.toNat h.toNat)).wroteAll (planeFrames 0x24 l t p)) := by
    rw [← wroteAll_append]
    exact transfersOk_wroteAll (by rw [transfersOfAll_append, transfersOfAll_window]; exact hok)
  rw [writeRegionBody, if_pos ⟨(aligned_iff _).2 hl, (aligned_iff _).2 hw⟩,
    ranges_ok hl hw (transfersOk_mono (by omega) hok), writePlane_withShadow hl hp, andThen_ok,
    writePlane_withShadow hl hq, regionFrames, wroteAll_append, wroteAll_append]
  cases p <;> cases q <;> rfl

theorem regionFrames_bufferOf (plane : Bank) (b : List Byte) (l t w h : W16) :
    regionFrames l t w h (bufferOf plane .black b) (bufferOf plane .red b) =
      windowFrames l t w.toNat h.toNat ++ counterFrames l t ++ [(planeOpcode plane, b)] := by
  cases plane <;> simp [regionFrames, planeFrames, bufferOf, planeOpcode]

/-- The window and the counter as the range and counter frames of a region leave them. -/
theorem Peer.acceptAll_corner (hb : p.busy = false) (l t w h : W16) :
    p.acceptAll (windowFrames l t w.toNat h.toNat ++ counterFrames l t) =
      { p with regs := regionRegs l t w h p.regs } := by
  rw [Peer.acceptAll_append, Peer.acceptAll_window hb, Peer.acceptAll_counter]
  · rfl
  · exact hb

/-- What the frames of `WRITE_REGION` of one plane make of the peer (R95). -/
theorem Peer.acceptAll_region (hf : regionFits l t w h) (hb : p.busy = false) (hd : p.regs.dem = 3) (plane : Bank)
    (b : List Byte) :
    p.acceptAll (windowFrames l t w.toNat h.toNat ++ counterFrames l t ++ [(planeOpcode plane, b)]) =
      { p with
        ram := storeWalk plane b (regionRegs l t w h p.regs) p.ram
        regs := advance^[b.length] (regionRegs l t w h p.regs) } := by
  have hw : Walks (regionRegs l t w h p.regs) := regionRegs_walks hf hd
  have hbulk : ({ p with regs := regionRegs l t w h p.regs } : Peer).accept (planeOpcode plane) b =
      ({ p with regs := regionRegs l t w h p.regs } : Peer).writeBytes plane b :=
    (Peer.accept_bulk (p := { p with regs := regionRegs l t w h p.regs }) hb plane b).trans (if_pos hw.window)
  rw [Peer.acceptAll_append, Peer.acceptAll_corner hb, Peer.acceptAll_cons, Peer.acceptAll_nil, hbulk,
    Peer.writeBytes_walk plane b hw]

/-- The state `u` is what `WRITE_REGION` of one plane leaves of `s`, as far as a following request can see. -/
structure RegionWritten (plane : Bank) (l t w h : W16) (b : List Byte) (s u : State) : Prop where
  status : u.rsp.status = .ok
  lstate : u.lstate = .idle
  env    : u.env = { s.env with xferPos := s.env.xferPos + 10 }
  peer   : u.peer = { s.peer with
    ram := storeWalk plane b (regionRegs l t w h s.peer.regs) s.peer.ram
    regs := advance^[b.length] (regionRegs l t w h s.peer.regs) }

theorem regionFits_aligned (hf : regionFits l t w h) : l.toNat % 8 = 0 ∧ w.toNat % 8 = 0 := by
  obtain ⟨hl, hw, -⟩ := hf
  exact ⟨hl, hw⟩

/-- The buffer of a fitting region is not empty. -/
theorem regionFits_pos (hf : regionFits l t w h) : 0 < w.toNat / 8 * h.toNat := by
  obtain ⟨-, -, hw, hh, -⟩ := hf
  exact Nat.mul_pos (by omega) hh

/-- `WRITE_REGION` of one plane on an attached peer that is ready. -/
theorem execWriteRegion_plane (plane : Bank) (hf : regionFits l t w h) (hp : peerReady s) (hl : s.lstate = .idle)
    (hlen : b.length = w.toNat / 8 * h.toNat) (hok : transfersOk 10 s) :
    ∃ u, exec (.writeRegion l t w h (bufferOf plane .black b) (bufferOf plane .red b)) s = .next u ∧
      RegionWritten plane l t w h b s u := by
  obtain ⟨hr, hb, hd⟩ := hp
  have hne : b ≠ [] := List.ne_nil_of_length_pos (hlen ▸ regionFits_pos hf)
  have hcontract : writeRegionOk w h (bufferOf plane .black b) (bufferOf plane .red b) = true := by
    cases plane <;> simp [writeRegionOk, bufferOf, bufferOk, regionBytes, hlen]
  have hten : transfersOfAll (regionFrames l t w h (bufferOf plane .black b) (bufferOf plane .red b)) = 10 := by
    have hcounter : transfersOfAll (counterFrames l t) = 4 := rfl
    have hbuffer : transfersOf b = 2 := if_neg hne
    rw [regionFrames_bufferOf, transfersOfAll_append, transfersOfAll_append, transfersOfAll_window, hcounter,
      transfersOfAll_cons, transfersOfAll_nil, hbuffer]
  obtain ⟨hl8, hw8⟩ := regionFits_aligned hf
  have hbody := writeRegionBody_ok (s := start 0x15 s) (t := t) hl8 hw8 (by rw [hten]; exact hok)
  have hexec : exec (.writeRegion l t w h (bufferOf plane .black b) (bufferOf plane .red b)) s =
      .next (gated 0x15 (fun u => answerOf (writeRegionBody l t w h (bufferOf plane .black b)
        (bufferOf plane .red b) u)) s) := if_pos hcontract
  rw [hexec, gated_idle hl, hbody]
  refine ⟨_, rfl, answer_status _ _, ?_, ?_, ?_⟩
  · exact (wroteAll_lstate _ _).trans hl
  · refine (wroteAll_env _ _).trans ?_
    rw [hten]; rfl
  · refine (wroteAll_peer (s := start 0x15 s) hr _).trans ?_
    rw [regionFrames_bufferOf]
    exact Peer.acceptAll_region hf hb hd plane b

/-- Every byte of the buffer stands at its place in the region (R64). -/
theorem ramRead_storeWalk_region {m : List Host.Cell} {r : PeerRegs} (plane : Bank) (hf : regionFits l t w h)
    (hd : r.dem = 3) (hlen : b.length = w.toNat / 8 * h.toNat) {i : Nat} (hi : i < b.length) :
    ramRead (storeWalk plane b (regionRegs l t w h r) m) (regionAddr plane l t w i) = b[i]? := by
  rw [← walkAddr_region (plane := plane) hf hd (hlen ▸ hi)]
  exact ramRead_storeWalk_at (fun i hi j hj => walkAddr_region_inj hf hd (hlen ▸ hi) (hlen ▸ hj)) hi

/-- An address outside the region keeps its byte. -/
theorem ramRead_storeWalk_outside {m : List Host.Cell} {r : PeerRegs} (hf : regionFits l t w h) (hd : r.dem = 3)
    (hlen : b.length = w.toNat / 8 * h.toNat) {a : Nat} (ha : ¬ inRegion plane l t w h a) :
    ramRead (storeWalk plane b (regionRegs l t w h r) m) a = ramRead m a := by
  refine ramRead_storeWalk_other fun i hi he => ha ?_
  rw [he, walkAddr_region hf hd (hlen ▸ hi)]
  exact regionAddr_inRegion hf plane (hlen ▸ hi)

/-- `WRITE_REGION` of one plane stores each byte at its place and leaves every address outside the region alone. -/
theorem writeRegion_stores (plane : Bank) {u : State} (hf : regionFits l t w h) (hp : peerReady s) (hl : s.lstate = .idle)
    (hlen : b.length = w.toNat / 8 * h.toNat) (hok : transfersOk 10 s)
    (he : exec (.writeRegion l t w h (bufferOf plane .black b) (bufferOf plane .red b)) s = .next u) :
    (∀ i < b.length, ramRead u.peer.ram (regionAddr plane l t w i) = b[i]?) ∧
      ∀ a, ¬ inRegion plane l t w h a → ramRead u.peer.ram a = ramRead s.peer.ram a := by
  obtain ⟨u', hu, hwritten⟩ := execWriteRegion_plane plane hf hp hl hlen hok
  obtain rfl : u' = u := Host.Outcome.next.inj (hu.symm.trans he)
  obtain ⟨-, -, hd⟩ := hp
  rw [hwritten.peer]
  exact ⟨fun i hi => ramRead_storeWalk_region plane hf hd hlen hi, fun a ha => ramRead_storeWalk_outside hf hd hlen ha⟩

/-- Settles O31: the counter walks the region row by row and comes to no address twice. -/
theorem writeRegionStores : Obligations.WriteRegionStores := by
  intro s u l t w h b hf hp hl hlen hok
  exact ⟨writeRegion_stores .black hf hp hl hlen hok, writeRegion_stores .red hf hp hl hlen hok⟩

/-! ### `READ_REGION` of one plane -/

/-- What `READ_REGION` returned of a plane. -/
def planeData : Bank → ResponseBody → List Byte
  | .black, r => r.p
  | .red, r => r.s

theorem planeData_putPlane (plane : Bank) (b : List Byte) (r : ResponseBody) : planeData plane (putPlane plane b r) = b := by
  cases plane <;> rfl

/-- The body of `READ_REGION` of one plane when every transfer is `Ok` (R245). -/
theorem readRegionBody_ok (plane : Bank) (hl : l.toNat % 8 = 0) (hw : w.toNat % 8 = 0) (hok : transfersOk 12 s) :
    readRegionBody l t w h (decide (plane = .black)) (decide (plane = .red)) s =
      (.ok, modifyBody
        (putPlane plane ((s.wroteAll (windowFrames l t w.toNat h.toNat)).fetchedData plane l t (w.toNat / 8 * h.toNat)))
        { (s.wroteAll (windowFrames l t w.toNat h.toNat)).fetched plane l t (w.toNat / 8 * h.toNat) with
          sh := (s.sh.window l t w.toNat h.toNat).moved l t }) := by
  have hread : transfersOk 8 (s.wroteAll (windowFrames l t w.toNat h.toNat)) := transfersOk_wroteAll hok
  rw [readRegionBody, if_pos ⟨(aligned_iff _).2 hl, (aligned_iff _).2 hw⟩,
    ranges_ok hl hw (transfersOk_mono (by decide) hok)]
  cases plane with
  | black =>
    rw [decide_eq_true rfl, readPlane_withShadow hl hread]
    rfl
  | red => exact readPlane_withShadow hl hread

/-- A whole read of the RAM whose walk meets known bytes returns them after the two dummy bytes and changes no byte. -/
theorem offered_walk (hr : s.env.refPeer = true) (hb : s.peer.busy = false) (hw : Walks s.peer.regs)
    (hknown : ∀ i < b.length, ramRead s.peer.ram (walkAddr s.peer.regs.bank s.peer.regs i) = b[i]?) :
    (offered 0x27 (2 + b.length) s).1.drop 2 = b ∧ (offered 0x27 (2 + b.length) s).2.ram = s.peer.ram := by
  have hlen : (s.env.nextBytes (2 + b.length)).length = 2 + b.length := by simp [Env.nextBytes]
  have ho : offered 0x27 (2 + b.length) s = s.peer.supply 0x27 (s.env.nextBytes (2 + b.length)) := if_pos hr
  rw [ho, Peer.supply_walk hb hlen hw hknown]
  exact ⟨List.drop_left' (by rw [List.length_take, hlen]; omega), rfl⟩

/-- The state in which the read of a region's plane starts: the window set, the bank selected, the counter at the region's
corner (R245). -/
def State.aimed (plane : Bank) (l t w h : W16) (s : State) : State :=
  State.wroteAll ((0x41, [bankCode plane]) :: counterFrames l t) (s.wroteAll (windowFrames l t w.toNat h.toNat))

theorem aimed_refPeer (plane : Bank) (l t w h : W16) (s : State) :
    (s.aimed plane l t w h).env.refPeer = s.env.refPeer := by
  rw [State.aimed, wroteAll_env, wroteAll_env]

theorem aimed_peer (plane : Bank) (hr : s.env.refPeer = true) (hb : s.peer.busy = false) (l t w h : W16) :
    (s.aimed plane l t w h).peer = { s.peer with regs := regionRegs l t w h { s.peer.regs with bank := plane } } := by
  rw [State.aimed, ← wroteAll_append, wroteAll_peer hr, Peer.acceptAll_append, Peer.acceptAll_window hb,
    Peer.acceptAll_cons, Peer.accept_bank, Peer.acceptAll_counter, bankOfBit_bankCode]
  · rfl
  · exact hb
  · exact hb

/-- The read of a plane whose bytes are all known returns them and changes no byte. -/
theorem offered_aimed (plane : Bank) (hf : regionFits l t w h) (hp : peerReady s)
    (hlen : b.length = w.toNat / 8 * h.toNat)
    (hknown : ∀ i < b.length, ramRead s.peer.ram (regionAddr plane l t w i) = b[i]?) :
    (offered 0x27 (2 + b.length) (s.aimed plane l t w h)).1.drop 2 = b ∧
      (offered 0x27 (2 + b.length) (s.aimed plane l t w h)).2.ram = s.peer.ram := by
  obtain ⟨hr, hb, hd⟩ := hp
  have hpeer := aimed_peer (s := s) plane hr hb l t w h
  have hwalk : ∀ i < b.length,
      ramRead s.peer.ram (walkAddr plane (regionRegs l t w h { s.peer.regs with bank := plane }) i) = b[i]? := by
    intro i hi
    have hd' : ({ s.peer.regs with bank := plane } : PeerRegs).dem = 3 := hd
    rw [walkAddr_region hf hd' (hlen ▸ hi)]
    exact hknown i hi
  have ho := offered_walk (s := s.aimed plane l t w h) (b := b) ((aimed_refPeer _ _ _ _ _ _).trans hr)
    (by rw [hpeer]; exact hb) (by rw [hpeer]; exact regionRegs_walks hf hd) (by rw [hpeer]; exact hwalk)
  rwa [hpeer] at ho

/-- `READ_REGION` of one plane whose bytes are all known returns them and leaves the RAM as it was. -/
theorem execReadRegion_known (plane : Bank) (hf : regionFits l t w h) (hp : peerReady s) (hl : s.lstate = .idle)
    (hlen : b.length = w.toNat / 8 * h.toNat) (hok : transfersOk 12 s)
    (hknown : ∀ i < b.length, ramRead s.peer.ram (regionAddr plane l t w i) = b[i]?) :
    ∃ v, exec (.readRegion l t w h (decide (plane = .black)) (decide (plane = .red))) s = .next v ∧
      v.rsp.status = .ok ∧ planeData plane v.rsp.body = b ∧ v.peer.ram = s.peer.ram := by
  obtain ⟨hl8, hw8⟩ := regionFits_aligned hf
  have hexec : exec (.readRegion l t w h (decide (plane = .black)) (decide (plane = .red))) s = .next (answerOf
      (readRegionBody l t w h (decide (plane = .black)) (decide (plane = .red)) (start 0x16 s))) :=
    congrArg Host.Outcome.next (gated_idle hl)
  obtain ⟨hdata, hram⟩ := offered_aimed (s := start 0x16 s) plane hf hp hlen hknown
  rw [hexec, readRegionBody_ok (s := start 0x16 s) plane hl8 hw8 hok, ← hlen]
  exact ⟨_, rfl, answer_status _ _, (planeData_putPlane _ _ _).trans hdata, hram⟩

/-- What `WRITE_REGION` wrote to a plane, `READ_REGION` of it returns, and the read changes no byte. -/
theorem region_roundTrip (plane : Bank) (hf : regionFits l t w h) (hp : peerReady s) (hl : s.lstate = .idle)
    (hlen : b.length = w.toNat / 8 * h.toNat) (hok : transfersOk 22 s) :
    ∃ u v, exec (.writeRegion l t w h (bufferOf plane .black b) (bufferOf plane .red b)) s = .next u ∧
      exec (.readRegion l t w h (decide (plane = .black)) (decide (plane = .red))) u = .next v ∧
      u.rsp.status = .ok ∧ v.rsp.status = .ok ∧ planeData plane v.rsp.body = b ∧ v.peer.ram = u.peer.ram := by
  have hok10 : transfersOk 10 s := transfersOk_mono (by decide) hok
  obtain ⟨u, hu, hwritten⟩ := execWriteRegion_plane plane hf hp hl hlen hok10
  obtain ⟨hstored, -⟩ := writeRegion_stores plane hf hp hl hlen hok10 hu
  have hok12 : transfersOk 12 u := transfersOk_after (m := 10) hok (by rw [hwritten.env]) (by rw [hwritten.env])
  obtain ⟨hr, hb, hd⟩ := hp
  have hready : peerReady u := by
    refine ⟨by rw [hwritten.env]; exact hr, by rw [hwritten.peer]; exact hb, ?_⟩
    rw [hwritten.peer]
    exact (iterate_advance_field advance_dem _ _).trans hd
  obtain ⟨v, hv, hstatus, hdata, hram⟩ := execReadRegion_known plane hf hready hwritten.lstate hlen hok12 hstored
  exact ⟨u, v, hu, hv, hwritten.status, hstatus, hdata, hram⟩

/-- Settles O30: the read walks the same addresses as the write, whose bytes are known by then. -/
theorem regionRoundTrip : Obligations.RegionRoundTrip := by
  intro s l t w h b hf hp hl hlen hok
  exact ⟨region_roundTrip .black hf hp hl hlen hok, region_roundTrip .red hf hp hl hlen hok⟩

end Sys2Proof.Machine

/-! The display RAM is left alone by every instruction that neither writes nor reads it (O55): the frames of such an
instruction leave the bytes alone and, the two that raise it apart, the peer not busy for the frame that follows. -/

namespace Sys2Proof.Machine

variable {i : Instr} {s t u : State} {p : Peer} {op : Byte} {d : List Byte} {g : Byte} {r : Status × State}

/-! ### Frames that leave the bytes alone -/

/-- The opcodes of bulk writes and pattern fills, whose frames change bytes (R95, R98). -/
def storesBytes (op : Byte) : Bool := op ∈ ([0x24, 0x26, 0x46, 0x47] : List Byte)

/-- The opcodes of the software reset and the activation, which change no byte and raise busy (R98). -/
def raisesBusy (op : Byte) : Bool := op ∈ ([0x12, 0x20] : List Byte)

theorem not_storesBytes (h : storesBytes op = false) : op ≠ 0x24 ∧ op ≠ 0x26 ∧ op ≠ 0x46 ∧ op ≠ 0x47 := by
  simpa [storesBytes] using h

theorem not_raisesBusy (h : raisesBusy op = false) : op ≠ 0x12 ∧ op ≠ 0x20 := by simpa [raisesBusy] using h

theorem Peer.acceptRegister_ram_same (h46 : op ≠ 0x46) (h47 : op ≠ 0x47) : (p.acceptRegister op d).ram = p.ram := by
  simp only [Peer.acceptRegister, if_neg h46, if_neg h47]
  split_ifs <;> rfl

theorem Peer.acceptRegister_busy (h12 : op ≠ 0x12) (h20 : op ≠ 0x20) (h46 : op ≠ 0x46) (h47 : op ≠ 0x47) :
    (p.acceptRegister op d).busy = p.busy := by
  simp only [Peer.acceptRegister, if_neg h12, if_neg h20, if_neg h46, if_neg h47]
  split_ifs <;> rfl

theorem Peer.touchRegister_ram_same (h46 : op ≠ 0x46) (h47 : op ≠ 0x47) : (p.touchRegister op).ram = p.ram := by
  simp only [Peer.touchRegister, if_neg h46, if_neg h47]
  split_ifs <;> rfl

theorem Peer.touchRegister_busy (h12 : op ≠ 0x12) (h20 : op ≠ 0x20) (h46 : op ≠ 0x46) (h47 : op ≠ 0x47) :
    (p.touchRegister op).busy = p.busy := by
  simp only [Peer.touchRegister, if_neg h12, if_neg h20, if_neg h46, if_neg h47]
  split_ifs <;> rfl

/-- A failing frame that fits its format and is not bulk touches the registers of its opcode only. -/
theorem Peer.touch_of_fits (hb : p.busy = false) (hf : fitsWrite op d = true) (h24 : op ≠ 0x24) (h26 : op ≠ 0x26) :
    p.touch op d = p.touchRegister op := by
  have hok : (p.busy || !fitsWrite op d) = false := by rw [hb, hf]; rfl
  rw [Peer.touch, if_neg (by simp [hok]), if_neg h24, if_neg h26]

/-! ### States whose peer takes frames -/

/-- The attached peer, if there is one, is not busy. -/
def peerFree (s : State) : Prop := s.env.refPeer = true → s.peer.busy = false

/-- From `s` to `t` no byte of the RAM changes where the peer is free to take frames. -/
def RamKept (s t : State) : Prop := peerFree s → t.peer.ram = s.peer.ram

/-- From `s` to `t` no byte of the RAM changes where the peer is free to take frames, and it is free afterwards. -/
def Quiet (s t : State) : Prop := peerFree s → t.peer.ram = s.peer.ram ∧ peerFree t

theorem Quiet.ramKept (h : Quiet s t) : RamKept s t := fun hf => (h hf).1

theorem Quiet.then_ramKept (h1 : Quiet s t) (h2 : RamKept t u) : RamKept s u := fun hf =>
  (h2 (h1 hf).2).trans (h1 hf).1

theorem Quiet.trans (h1 : Quiet s t) (h2 : Quiet t u) : Quiet s u := fun hf =>
  ⟨h1.then_ramKept h2.ramKept hf, (h2 (h1 hf).2).2⟩

/-- What touches neither the peer nor whether it is attached. -/
theorem Quiet.ofEq (hp : t.peer = s.peer) (hr : t.env.refPeer = s.env.refPeer) : Quiet s t := fun hf =>
  ⟨congrArg Peer.ram hp, fun h => by rw [hp]; exact hf (hr ▸ h)⟩

theorem Quiet.refl (s : State) : Quiet s s := .ofEq rfl rfl

/-- The answer of a request changes nothing of the peer. -/
theorem RamKept.answer (st : Status) (h : RamKept s t) : RamKept s (answer st t) := fun hf =>
  (congrArg Peer.ram (answer_peer t st)).trans (h hf)

/-- `SEQ` and `LSTATE` do not matter to the relation. -/
theorem RamKept.ofStart (h : RamKept (start g s) t) : RamKept s t := h

theorem RamKept.ofLState {l : LState} (h : RamKept (setLState l s) t) : RamKept s t := h

/-- The early return keeps the relation. -/
theorem Quiet.andThen {k : State → Status × State} (h1 : Quiet s r.2) (h2 : ∀ v, Quiet v (k v).2) :
    Quiet s (Machine.andThen r k).2 := by
  rcases andThen_cases r k with ⟨-, e⟩ | ⟨-, e⟩ <;> rw [e]
  · exact h1.trans (h2 r.2)
  · exact h1

theorem Quiet.andThen_ramKept {k : State → Status × State} (h1 : Quiet s r.2) (h2 : ∀ v, RamKept v (k v).2) :
    RamKept s (Machine.andThen r k).2 := by
  rcases andThen_cases r k with ⟨-, e⟩ | ⟨-, e⟩ <;> rw [e]
  · exact h1.then_ramKept (h2 r.2)
  · exact h1.ramKept

/-- A step that gives an attached peer the effect `f` keeps the bytes where `f` does. -/
theorem RamKept.ofPeer {f : Peer → Peer} (hp : t.peer = if s.env.refPeer then f s.peer else s.peer)
    (hf : s.peer.busy = false → (f s.peer).ram = s.peer.ram) : RamKept s t := by
  intro hfree
  rw [hp]
  split
  · exact hf (hfree ‹_›)
  · rfl

theorem Quiet.ofPeer {f : Peer → Peer} (hp : t.peer = if s.env.refPeer then f s.peer else s.peer)
    (hr : t.env.refPeer = s.env.refPeer)
    (hf : s.peer.busy = false → (f s.peer).ram = s.peer.ram ∧ (f s.peer).busy = false) : Quiet s t := by
  refine fun hfree => ⟨RamKept.ofPeer hp (fun hb => (hf hb).1) hfree, fun ht => ?_⟩
  have ha : s.env.refPeer = true := hr ▸ ht
  rw [hp, if_pos ha]
  exact (hf (hfree ha)).2

/-! ### Frames -/

/-- What any write frame does to the peer: all of its effect, or what its failure touches. -/
theorem frameW_peer_cases (op : Byte) (d : List Byte) (s : State) :
    ∃ f : Peer → Peer, (f = Peer.accept op d ∨ f = Peer.touch op d) ∧
      (frameW op d s).2.peer = if s.env.refPeer then f s.peer else s.peer := by
  rcases frameW_cases op d s with ⟨-, e⟩ | ⟨_, -, e⟩ | ⟨_, -, -, -, e⟩ <;> rw [e]
  · exact ⟨_, .inl rfl, rfl⟩
  · exact ⟨_, .inr rfl, rfl⟩
  · exact ⟨_, .inr rfl, rfl⟩

theorem RamKept.frameW (hfit : fitsWrite op d = true) (hs : storesBytes op = false) (s : State) :
    RamKept s (Machine.frameW op d s).2 := by
  obtain ⟨h24, h26, h46, h47⟩ := not_storesBytes hs
  obtain ⟨f, rfl | rfl, hp⟩ := frameW_peer_cases op d s
  · exact .ofPeer hp fun hb => by rw [Peer.accept_of_fits hb hfit h24 h26, Peer.acceptRegister_ram_same h46 h47]
  · exact .ofPeer hp fun hb => by rw [Peer.touch_of_fits hb hfit h24 h26, Peer.touchRegister_ram_same h46 h47]

theorem Quiet.frameW (hfit : fitsWrite op d = true) (hs : storesBytes op = false) (hn : raisesBusy op = false)
    (s : State) : Quiet s (Machine.frameW op d s).2 := by
  obtain ⟨h24, h26, h46, h47⟩ := not_storesBytes hs
  obtain ⟨h12, h20⟩ := not_raisesBusy hn
  obtain ⟨f, rfl | rfl, hp⟩ := frameW_peer_cases op d s
  · refine .ofPeer hp (Ran.frameW op d s).ref fun hb => ?_
    rw [Peer.accept_of_fits hb hfit h24 h26]
    exact ⟨Peer.acceptRegister_ram_same h46 h47, (Peer.acceptRegister_busy h12 h20 h46 h47).trans hb⟩
  · refine .ofPeer hp (Ran.frameW op d s).ref fun hb => ?_
    rw [Peer.touch_of_fits hb hfit h24 h26]
    exact ⟨Peer.touchRegister_ram_same h46 h47, (Peer.touchRegister_busy h12 h20 h46 h47).trans hb⟩

/-- A read that fits its opcode and is not of the RAM leaves the peer as it was, however it ends. -/
theorem frameR_peer {k : Nat} (hfit : fitsRead op k = true) (h27 : op ≠ 0x27) (hk : 0 < k) (hfree : peerFree s) :
    (frameR op k s).2.peer = s.peer := by
  have hok : s.env.refPeer = true → ¬ (s.peer.busy || !fitsRead op k) = true := fun ha => by
    rw [hfree ha, hfit]; exact Bool.false_ne_true
  have htouch : (if s.env.refPeer then s.peer.touchRead op k else s.peer) = s.peer := by
    split
    · rw [Peer.touchRead, if_neg (hok ‹_›), if_neg h27]
    · rfl
  have hoffered : (offered op k s).2 = s.peer := by
    have hlen : (s.env.nextBytes k).length = k := by simp [Env.nextBytes]
    unfold offered
    dsimp only
    split
    · rw [Peer.supply, hlen, if_neg (hok ‹_›), if_neg h27]
    · rfl
  rcases frameR_cases op s hk with ⟨-, e⟩ | ⟨_, -, e⟩ | ⟨_, -, -, e⟩ <;> rw [e]
  · exact hoffered
  · exact htouch
  · exact htouch

theorem Quiet.frameR {k : Nat} (hfit : fitsRead op k = true) (h27 : op ≠ 0x27) (hk : 0 < k) (s : State) :
    Quiet s (Machine.frameR op k s).2 := fun hfree =>
  Quiet.ofEq (frameR_peer hfit h27 hk hfree) (Ran.frameR op k s).ref hfree

/-! ### Bodies -/

theorem Quiet.hRange (l w : Nat) (s : State) : Quiet s (Machine.hRange l w s).2 := by
  unfold Machine.hRange
  split
  · exact Quiet.frameW (op := 0x44) rfl rfl rfl s
  · exact Quiet.refl s

theorem Quiet.vRange (t h : Nat) (s : State) : Quiet s (Machine.vRange t h s).2 :=
  Quiet.frameW (op := 0x45) (d := le16 _ ++ le16 _) rfl rfl rfl s

theorem Quiet.startAddr (x y : W16) (s : State) : Quiet s (Machine.startAddr x y s).2 := by
  unfold Machine.startAddr
  split
  · exact Quiet.andThen (Quiet.frameW (op := 0x4E) rfl rfl rfl s) fun v =>
      Quiet.frameW (op := 0x4F) (d := le16 y) rfl rfl rfl v
  · exact Quiet.refl s

theorem Quiet.gateScanBody (a b : W16) (s : State) : Quiet s (Machine.gateScanBody a b s).2 :=
  Quiet.andThen (Quiet.frameW (d := le16 a) rfl rfl rfl s) fun v => Quiet.frameW (d := le16 b ++ [0x00]) rfl rfl rfl v

theorem Quiet.configureBody (s : State) : Quiet s (Machine.configureBody s).2 := by
  unfold Machine.configureBody
  refine Quiet.andThen (Quiet.frameR (op := 0x2E) rfl (by decide) (by decide) s) fun v => ?_
  refine Quiet.andThen (Quiet.gateScanBody 0 v.cfg.resY v) fun v => ?_
  refine Quiet.andThen (Quiet.frameW (d := le16 (uc1Of v.cfg)) rfl rfl rfl v) fun v => ?_
  refine Quiet.andThen (Quiet.frameW (d := [Config.uc2Full]) rfl rfl rfl v) fun v => ?_
  exact Quiet.andThen (Quiet.frameW (d := [packMode Config.demDefault]) rfl rfl rfl v) fun v =>
    Quiet.frameW (d := [Config.tempInternal]) rfl rfl rfl v

/-- The activation at the end of `REFRESH` raises busy, so the peer is not free after it. -/
theorem RamKept.refreshBody (s : State) : RamKept s (Machine.refreshBody s).2 :=
  Quiet.andThen_ramKept (Quiet.frameW (d := Config.booster) rfl rfl rfl s) fun v =>
    Quiet.andThen_ramKept (Quiet.frameW (d := [Config.uc2Full]) rfl rfl rfl v) fun u => RamKept.frameW rfl rfl u

/-- The reset pulse keeps the RAM and the busy condition (R363, log 27). -/
theorem Quiet.pulsed (s : State) : Quiet s s.pulsed := .ofPeer rfl rfl fun hb => ⟨rfl, hb⟩

/-! ### The busy-wait -/

theorem RamKept.initFail (st : Status) (h : RamKept s t) : RamKept s (initFail st t) :=
  RamKept.answer (t := setLState .poweredOff t) st h

theorem RamKept.initConfigure (s : State) : RamKept s (initConfigure s) := by
  have hc : RamKept s (Machine.configureBody (setLState .configuring s)).2 := 
    (Quiet.configureBody (setLState .configuring s)).ramKept.ofLState
  unfold Machine.initConfigure
  dsimp only
  split
  · exact hc.answer .ok
  · exact hc.initFail _

theorem RamKept.afterWait (tag : Byte) (s : State) : RamKept s (afterWait tag s) := by
  unfold Machine.afterWait
  split_ifs
  · exact RamKept.initConfigure s
  · exact (Quiet.refl s).ramKept.answer .ok
  · exact (Quiet.refl s).ramKept.answer .ok

/-- After a poll that reads deasserted the peer is free (R98). -/
theorem peerFree_polledReady (s : State) : peerFree s.polledReady := fun ha => by
  have ha : s.env.refPeer = true := ha
  simp [State.polledReady, ha]

theorem polledReady_ram (s : State) : s.polledReady.peer.ram = s.peer.ram := by
  show (if s.env.refPeer then { s.peer with busy := false } else s.peer).ram = s.peer.ram
  split <;> rfl

/-- A turn of the busy-wait changes no byte, even where the peer was busy: what follows the wait finds it free. -/
theorem waitTurn_ram (tag : Byte) (s : State) : (waitTurn tag s).peer.ram = s.peer.ram := by
  cases hb : busyLevel s with
  | false =>
    rw [waitTurn_ready hb]
    exact (RamKept.afterWait tag s.polledReady (peerFree_polledReady s)).trans (polledReady_ram s)
  | true => rw [waitTurn_busy hb]; rfl

theorem RamKept.waitTurn (tag : Byte) (h : RamKept s t) : RamKept s (waitTurn tag t) := fun hf =>
  (waitTurn_ram tag t).trans (h hf)

/-! ### Every instruction -/

theorem RamKept.answerOf (h : (Host.Outcome.next (answerOf r) : Host.Outcome State Fault Refusal) = .next t)
    (hr : RamKept s r.2) : RamKept s t := by
  obtain rfl := Host.Outcome.next.inj h
  exact hr.answer _

/-- A gated request keeps the bytes where its body does. -/
theorem RamKept.gated {body : State → State}
    (h : (Host.Outcome.next (gated g body s) : Host.Outcome State Fault Refusal) = .next t)
    (hb : RamKept (start g s) (body (start g s))) : RamKept s t := by
  obtain rfl := Host.Outcome.next.inj h
  by_cases hl : s.lstate = .idle
  · rw [gated_idle hl]; exact hb.ofStart
  · rw [gated_not_idle hl]; exact fun _ => rfl

theorem ramKept_execReset (h : execReset s = .next t) : RamKept s t := by
  obtain rfl := Host.Outcome.next.inj h
  rw [resetBody_eq]
  have hp : RamKept s (start tagReset s).pulsed := (Quiet.pulsed (start tagReset s)).ramKept
  exact RamKept.answer .ok hp

theorem ramKept_initStart (s : State) : RamKept s (initStart s).2 := by
  unfold initStart
  rw [resetBody_eq]
  have hframe : RamKept (start tagInit s).pulsed (softwareResetBody (setLState .awaitingReady (start tagInit s).pulsed)).2 :=
    (RamKept.frameW (op := 0x12) (d := []) rfl rfl (setLState .awaitingReady (start tagInit s).pulsed)).ofLState
  exact ((Quiet.pulsed (start tagInit s)).then_ramKept hframe).ofStart

theorem ramKept_execInit (h : execInit s = .next t) : RamKept s t := by
  obtain rfl := Host.Outcome.next.inj h
  split
  · exact (ramKept_initStart s).waitTurn _
  · exact (ramKept_initStart s).initFail _

theorem ramKept_execRefresh (h : execRefresh s = .next t) : RamKept s t := by
  refine RamKept.gated h ?_
  have hr : RamKept (start tagRefresh s) (refreshBody (setLState .updating (start tagRefresh s))).2 :=
    (RamKept.refreshBody (setLState .updating (start tagRefresh s))).ofLState
  dsimp only
  split
  · exact hr.waitTurn _
  · exact RamKept.answer (t := setLState .idle _) _ hr

theorem ramKept_execBusyWait (h : execBusyWait s = .next t) : RamKept s t := by
  obtain rfl := Host.Outcome.next.inj h
  exact fun _ => waitTurn_ram tagBusyWait (start tagBusyWait s)

/-- No instruction outside the table of those that may store changes a byte, by the frames it sends. -/
theorem exec_ramKept (hi : mayStore i = false) (h : exec i s = .next t) : RamKept s t := by
  cases i with
  | opWriteRamPrimary | opWriteRamSecondary | opPatternPrimary | opPatternSecondary | send | receive | patternFillPrimary
  | patternFillSecondary | writeRegion | readRegion | opReadRam | printH | printV => cases hi
  | opGateScan | opGateVoltage | opSourceVoltage | opBoosterSoftStart | opGateScanStart | opDataEntryMode | opSwReset
  | opTempSensorSelect | opMasterActivation | opUpdateControl1 | opUpdateControl2 | opVcomVoltage | opBorder
  | opRamReadBank | opNop => exact RamKept.answerOf h (RamKept.frameW rfl rfl s)
  | opRamXRange a b => exact RamKept.answerOf h (RamKept.frameW (op := 0x44) (d := [a, b]) rfl rfl s)
  | opRamYRange a b => exact RamKept.answerOf h (RamKept.frameW (op := 0x45) (d := le16 a ++ le16 b) rfl rfl s)
  | opRamXCounter x => exact RamKept.answerOf h (RamKept.frameW (op := 0x4E) (d := [x]) rfl rfl s)
  | opRamYCounter y => exact RamKept.answerOf h (RamKept.frameW (op := 0x4F) (d := le16 y) rfl rfl s)
  | opTempRead | opReadUserId => exact RamKept.answerOf h (Quiet.frameR rfl (by decide) (by decide) s).ramKept
  | updateCtrl1 | updateCtrl2 | border | dataEntryMode | ramBankSelect | selectTempSensor | softwareReset
  | masterActivation | boosterSoftStart | nop => exact RamKept.gated h (RamKept.answer _ (RamKept.frameW rfl rfl (start _ s)))
  | gateScanRange a b => exact RamKept.gated h ((Quiet.gateScanBody a b _).ramKept.answer _)
  | readTemperature | readUserId =>
    exact RamKept.gated h (RamKept.answer _ (Quiet.frameR rfl (by decide) (by decide) (start _ s)).ramKept)
  | setHRange l w => exact RamKept.gated h ((Quiet.hRange _ _ _).ramKept.answer _)
  | setVRange l w => exact RamKept.gated h ((Quiet.vRange _ _ _).ramKept.answer _)
  | setStartAddress x y => exact RamKept.gated h ((Quiet.startAddr x y _).ramKept.answer _)
  | resetFullRange =>
    exact RamKept.gated h ((Quiet.andThen (Quiet.hRange _ _ _) fun v => Quiet.vRange _ _ v).ramKept.answer _)
  | reset => exact ramKept_execReset h
  | init => exact ramKept_execInit h
  | refresh => exact ramKept_execRefresh h
  | busyWait => exact ramKept_execBusyWait h

/-- Settles O55: no frame of such an instruction changes a byte, and none is sent while its own reset or activation keeps
the peer busy. -/
theorem ramUnchanged : Obligations.RamUnchanged := fun _ _ _ hi hfree h a =>
  congrArg (fun m => ramRead m a) (exec_ramKept hi h hfree)

end Sys2Proof.Machine

/-! Decoding and encoding: what the encoder writes the decoder reads back, a wire frame that decodes is the one its
instruction encodes to, and the request tags (O5 to O8). -/

namespace Sys2Proof.Machine

/-! ### Operands as an item holds them (R71, R123) -/

@[simp] theorem le16_ofLoHi (lo hi : Byte) : le16 (ofLoHi lo hi) = [lo, hi] := by
  rw [le16, lo8_ofLoHi, hi8_ofLoHi]

theorem colorOfCode_register (c : Color) : colorOfCode (((colorCode c).setWidth 16).setWidth 2) = c := by
  rw [setWidth_setWidth_of_le (by decide), colorOfCode_colorCode]

theorem bankOfBit_register (b : Bank) : bankOfBit (((bankCode b).setWidth 16).getLsbD 0) = b := by cases b <;> rfl

/-- The operands of either pattern fill, read from their three registers. -/
theorem patternOperands_register (mk : BitVec 3 → BitVec 3 → Color → Instr) (ps ss : BitVec 3) (c : Color) :
    mk ((ps.setWidth 16).setWidth 3) ((ss.setWidth 16).setWidth 3)
      (colorOfCode (((colorCode c).setWidth 16).setWidth 2)) = mk ps ss c := by
  rw [setWidth_setWidth_of_le (by decide), setWidth_setWidth_of_le (by decide), colorOfCode_register]

@[simp] theorem isSome_wanted (b : Bool) : (wanted b).isSome = b := by cases b <;> rfl

/-! ### Decoding after encoding -/

theorem decodeRead_ram (n : Nat) : decodeRead 0x27 (Config.dummyReadBytes + n) = .ok (.opReadRam n) := by
  simp [decodeRead]

/-- The encoder changes the form of 16-bit payload fields, of operands narrower than their register and of the wanted
planes; of every other operand the decoder finds the value itself. -/
theorem decode_encode (i : Instr) : decode (encode i) = .ok i := by
  cases i with
  | opGateScan r o => exact congrArg (fun v => Except.ok (Instr.opGateScan v o)) (ofLoHi_lo8_hi8 r)
  | opGateScanStart r => exact congrArg (fun v => Except.ok (Instr.opGateScanStart v)) (ofLoHi_lo8_hi8 r)
  | opUpdateControl1 u => exact congrArg (fun v => Except.ok (Instr.opUpdateControl1 v)) (ofLoHi_lo8_hi8 u)
  | opRamYCounter y => exact congrArg (fun v => Except.ok (Instr.opRamYCounter v)) (ofLoHi_lo8_hi8 y)
  | opRamYRange ys ye =>
    exact congrArg₂ (fun v w => Except.ok (Instr.opRamYRange v w)) (ofLoHi_lo8_hi8 ys) (ofLoHi_lo8_hi8 ye)
  | opReadRam n => exact (decodeWire_recv (by decide) _).trans (decodeRead_ram n)
  | send c d => exact congrArg (fun v => Except.ok (Instr.send v d)) (setWidth_setWidth_of_le (by decide) c)
  | receive c k => exact congrArg (fun v => Except.ok (Instr.receive v k)) (setWidth_setWidth_of_le (by decide) c)
  | border c => exact congrArg (fun v => Except.ok (Instr.border v)) (colorOfCode_register c)
  | patternFillPrimary ps ss c => exact congrArg Except.ok (patternOperands_register .patternFillPrimary ps ss c)
  | patternFillSecondary ps ss c => exact congrArg Except.ok (patternOperands_register .patternFillSecondary ps ss c)
  | dataEntryMode m => exact congrArg (fun v => Except.ok (Instr.dataEntryMode v)) (setWidth_setWidth_of_le (by decide) m)
  | ramBankSelect b => exact congrArg (fun v => Except.ok (Instr.ramBankSelect v)) (bankOfBit_register b)
  | readRegion l t w h p q =>
    exact congrArg₂ (fun v u => Except.ok (Instr.readRegion l t w h v u)) (isSome_wanted p) (isSome_wanted q)
  | _ => rfl

/-- Settles O7, by the cases over the constructors of `decode_encode`. -/
theorem decodeEncode : Obligations.DecodeEncode := decode_encode

/-! ### Encoding after decoding -/

/-- The command byte and the number of payload bytes fix the opcode. A pair of no format leaves nothing to show, and a
16-bit field is taken apart into the two bytes it was put together from. -/
theorem encode_of_decodeWrite {c : Byte} {d : List Byte} {i : Instr} (hc : c ∈ assignedOpcodes)
    (h : decodeWrite c d = .ok i) : encode i = wireSend c d := by
  fin_cases hc
  all_goals rcases d with _ | ⟨d0, _ | ⟨d1, _ | ⟨d2, _ | ⟨d3, _ | ⟨d4, d⟩⟩⟩⟩⟩
  all_goals cases h
  all_goals simp only [encode, le16_ofLoHi, List.cons_append, List.nil_append]

/-- Two reads have a fixed number of bytes; that of the RAM read is the number asked for and the dummy bytes. -/
theorem encode_of_decodeRead {c : Byte} {k : Nat} {i : Instr} (h : decodeRead c k = .ok i) : encode i = wireRecv c k := by
  unfold decodeRead at h
  split_ifs at h with htemp huser hram <;> cases h
  · obtain ⟨rfl, rfl⟩ := htemp; rfl
  · obtain ⟨rfl, rfl⟩ := huser; rfl
  · obtain ⟨rfl, hk⟩ := hram
    rw [encode, Nat.add_sub_cancel' hk]

/-- Settles O8: a frame that decodes has an assigned opcode, and its data phase says which format it has. -/
theorem encodeDecodeWire : Obligations.EncodeDecodeWire := by
  rintro ⟨c, d | k⟩ i h
  all_goals have hc : c ∈ assignedOpcodes := decodeWire_assigned h
  · exact encode_of_decodeWrite hc ((decodeWire_send hc d).symm.trans h)
  · exact encode_of_decodeRead ((decodeWire_recv hc k).symm.trans h)

/-! ### Tags and words -/

/-- The last arm of the decoder is left with the tags above 0x1C. -/
theorem decodeRequest_known {f : ReqFrame} (h : f.tag.toNat ≤ 0x1C) : ∃ i, decodeRequest f = .ok i := by
  unfold decodeRequest
  split
  case h_30 =>
    simp only [imp_false] at *
    bv_omega
  all_goals exact ⟨_, rfl⟩

/-- Settles O5: the tags up to 0x1C each have an arm, and the others are rejected. -/
theorem requestTags : Obligations.RequestTags := by
  refine fun f => ⟨fun ⟨i, hi⟩ => ?_, decodeRequest_known⟩
  by_contra hbig
  rw [decodeRequest_unknownTag (by omega)] at hi
  cases hi

/-- Settles O6: six of the words are those the encoder writes; the colour operand has a bit above its field set, which the
decoder does not read. -/
theorem decodesWords : Obligations.DecodesWords :=
  ⟨decode_encode (.opGateScan 296 0), decode_encode (.opRamXRange 1 2), decode_encode (.opRamYRange 10 29),
    decode_encode .opReadUserId, decode_encode (.opReadRam 6), decodeWire_unassigned (by decide), rfl,
    decode_encode (.setHRange 8 16), decodeRequest_unknownTag (f := ReqFrame.blank 0x1D) (by decide)⟩

end Sys2Proof.Machine

/-! The pattern bytes and the window fields in arithmetic, the unpack functions as the inverses of the pack functions, and
`SET_H_RANGE` with the bytes it sends (O9 to O12, O60). -/

namespace Sys2Proof.Machine

/-! ### The pattern bytes (R118) -/

/-- Bits from `k` upward meet bits from `k` upward; the low ones stay. -/
theorem or_two_pow_mul {k r : Nat} (hr : r < 2 ^ k) (a b : Nat) : (2 ^ k * a + r) ||| 2 ^ k * b = 2 ^ k * (a ||| b) + r := by
  have hmul (n : Nat) : 2 ^ k * n = n <<< k := by rw [Nat.shiftLeft_eq, Nat.mul_comm]
  rw [Nat.two_pow_add_eq_or_of_lt hr, Nat.two_pow_add_eq_or_of_lt hr, Nat.or_right_comm, hmul, hmul, hmul,
    Nat.shiftLeft_or_distrib]

theorem or_eq_max_of_lt_two {a b : Nat} (ha : a < 2) (hb : b < 2) : a ||| b = max a b := by
  interval_cases a <;> interval_cases b <;> rfl

theorem bit8_toNat (b : Bool) : (bit8 b).toNat = b.toNat := by cases b <;> rfl

/-- A byte split at bit `k`, with a flag placed in that bit. -/
theorem or_bit8_toNat {x : Byte} {k a r : Nat} (hk : k < 8) (hr : r < 2 ^ k) (hx : x.toNat = 2 ^ k * a + r) (b : Bool) :
    (x ||| bit8 b <<< k).toNat = 2 ^ k * (a ||| b.toNat) + r := by
  have hfits : 2 ^ k * b.toNat < 2 ^ 8 := calc
    2 ^ k * b.toNat ≤ 2 ^ k * 1 := Nat.mul_le_mul_left _ b.toNat_le
    _ = 2 ^ k := Nat.mul_one _
    _ < 2 ^ 8 := Nat.pow_lt_pow_right (by decide) hk
  have hflag : (bit8 b <<< k).toNat = 2 ^ k * b.toNat := by
    rw [BitVec.toNat_shiftLeft, bit8_toNat, Nat.shiftLeft_eq, Nat.mul_comm, Nat.mod_eq_of_lt hfits]
  rw [BitVec.toNat_or, hx, hflag, or_two_pow_mul hr]

/-- The strides have no bit in common. -/
theorem patternBase_toNat (ps ss : BitVec 3) : (patternBase ps ss).toNat = 16 * ss.toNat + ps.toNat := by
  have hlow : ps.toNat < 2 ^ 4 := by omega
  have hss : (ss.setWidth 8 <<< 4).toNat = 2 ^ 4 * ss.toNat := by
    rw [BitVec.toNat_shiftLeft, BitVec.toNat_setWidth, Nat.shiftLeft_eq]; omega
  have hps : (ps.setWidth 8).toNat = ps.toNat := by rw [BitVec.toNat_setWidth]; omega
  rw [patternBase, BitVec.toNat_or, hss, hps, ← Nat.two_pow_add_eq_or_of_lt hlow]

theorem colorCode_bit0 (c : Color) : ((colorCode c).getLsbD 0).toNat = (colorCode c).toNat % 2 := by cases c <;> rfl

theorem colorCode_bit1 (c : Color) : ((colorCode c).getLsbD 1).toNat = (colorCode c).toNat / 2 := by cases c <;> rfl

/-- Bit 7 lies above both strides. -/
theorem packPatternPrimary_toNat (ps ss : BitVec 3) (c : Color) :
    (packPatternPrimary ps ss c).toNat = 128 * ((colorCode c).toNat % 2) + 16 * ss.toNat + ps.toNat := by
  have hlow : 16 * ss.toNat + ps.toNat < 2 ^ 7 := by omega
  have hbase : (patternBase ps ss).toNat = 2 ^ 7 * 0 + (16 * ss.toNat + ps.toNat) := by rw [patternBase_toNat]; omega
  rw [packPatternPrimary, or_bit8_toNat (by decide) hlow hbase, Nat.zero_or, colorCode_bit0]
  omega

/-- Bit 6 is also the top bit of `ss`. -/
theorem packPatternSecondary_toNat (ps ss : BitVec 3) (c : Color) :
    (packPatternSecondary ps ss c).toNat =
      64 * max (ss.toNat / 4) ((colorCode c).toNat / 2) + 16 * (ss.toNat % 4) + ps.toNat := by
  have hlow : 16 * (ss.toNat % 4) + ps.toNat < 2 ^ 6 := by omega
  have hbase : (patternBase ps ss).toNat = 2 ^ 6 * (ss.toNat / 4) + (16 * (ss.toNat % 4) + ps.toNat) := by
    rw [patternBase_toNat]; omega
  rw [packPatternSecondary, or_bit8_toNat (by decide) hlow hbase, colorCode_bit1,
    or_eq_max_of_lt_two (by omega) (by omega)]
  omega

/-- Settles O9: the colour bit is placed over the strides, in a bit of its own or in the top bit of `ss`. -/
theorem patternBytes : Obligations.PatternBytes := fun ps ss c =>
  ⟨packPatternPrimary_toNat ps ss c, packPatternSecondary_toNat ps ss c⟩

/-! ### Register payloads unpacked (R130) -/

theorem getElem_bit16 (b : Bool) {i : Nat} (hi : i < 16) : (bit16 b)[i] = (b && decide (i = 0)) := by
  cases b <;> simp [bit16, BitVec.getElem_one]

theorem getElem_bit8 (b : Bool) {i : Nat} (hi : i < 8) : (bit8 b)[i] = (b && decide (i = 0)) := by
  cases b <;> simp [bit8, BitVec.getElem_one]

/-- Each flag has a bit of its own. -/
theorem unpackUc1_packUc1 (bypP invP bypS invS scan : Bool) :
    unpackUc1 (packUc1 bypP invP bypS invS scan) = (bypP, invP, bypS, invS, scan) := by
  simp [unpackUc1, packUc1, getElem_bit16]

theorem unpackBorder_packBorder (c : Color) : unpackBorder (packBorder c) = (colorCode c, true) := by cases c <;> rfl

/-- A field of a byte, by its number. -/
theorem extractLsb'_eq_of_toNat {b : Byte} {start len : Nat} {v : BitVec len}
    (h : b.toNat / 2 ^ start % 2 ^ len = v.toNat) : b.extractLsb' start len = v := by
  apply BitVec.eq_of_toNat_eq
  rw [BitVec.extractLsb'_toNat, Nat.shiftRight_eq_div_pow, h]

theorem unpackPatternPrimary_packPatternPrimary (ps ss : BitVec 3) (c : Color) :
    unpackPatternPrimary (packPatternPrimary ps ss c) = (ps, ss, (colorCode c).getLsbD 0) := by
  have hb := packPatternPrimary_toNat ps ss c
  have hps : (packPatternPrimary ps ss c).extractLsb' 0 3 = ps := extractLsb'_eq_of_toNat (by omega)
  have hss : (packPatternPrimary ps ss c).extractLsb' 4 3 = ss := extractLsb'_eq_of_toNat (by omega)
  have hbit : (packPatternPrimary ps ss c).getLsbD 7 = (colorCode c).getLsbD 0 := by
    simp [packPatternPrimary, patternBase, getElem_bit8]
  rw [unpackPatternPrimary, hps, hss, hbit]

/-- Bit 6 does not tell the top bit of `ss` from the colour bit. -/
theorem unpackPatternSecondary_packPatternSecondary (ps ss : BitVec 3) (c : Color) :
    unpackPatternSecondary (packPatternSecondary ps ss c) =
      (ps, ss.extractLsb' 0 2, ss.getLsbD 2 || (colorCode c).getLsbD 1) := by
  have hb := packPatternSecondary_toNat ps ss c
  have hlow : (ss.extractLsb' 0 2).toNat = ss.toNat % 4 := BitVec.extractLsb'_toNat ..
  have hps : (packPatternSecondary ps ss c).extractLsb' 0 3 = ps := extractLsb'_eq_of_toNat (by omega)
  have hss : (packPatternSecondary ps ss c).extractLsb' 4 2 = ss.extractLsb' 0 2 :=
    extractLsb'_eq_of_toNat (by omega)
  have hbit : (packPatternSecondary ps ss c).getLsbD 6 = (ss.getLsbD 2 || (colorCode c).getLsbD 1) := by
    simp [packPatternSecondary, patternBase, getElem_bit8]
  rw [unpackPatternSecondary, hps, hss, hbit]

theorem unpackGate_halves (r : W16) (order : Byte) : unpackGate (lo8 r) (hi8 r) order = (r, order) := by
  rw [unpackGate, ofLoHi_lo8_hi8]

/-! ### Ranges unpacked (R130) -/

theorem unpackXRange_of_le {xs xe : Byte} (h : xs.toNat ≤ xe.toNat) :
    unpackXRange xs xe = (xs, xe, some (8 * xs.toNat, 8 * (xe.toNat - xs.toNat + 1))) := by
  rw [unpackXRange, if_pos (BitVec.le_def.2 h)]

theorem unpackXRange_none_iff (xs xe : Byte) : (unpackXRange xs xe).2.2 = none ↔ xe.toNat < xs.toNat := by
  simp [unpackXRange, BitVec.lt_def]

theorem unpackYRange_halves (ys ye : W16) : unpackYRange (lo8 ys) (hi8 ys) (lo8 ye) (hi8 ye) =
    (ys, ye, if ys ≤ ye then some (ys.toNat, ye.toNat - ys.toNat + 1) else none) := by
  simp only [unpackYRange, ofLoHi_lo8_hi8]

theorem unpackYRange_none_iff (ys ye : W16) :
    (unpackYRange (lo8 ys) (hi8 ys) (lo8 ye) (hi8 ye)).2.2 = none ↔ ye.toNat < ys.toNat := by
  simp [unpackYRange_halves, BitVec.lt_def]

/-- Settles O10: one lemma for each pack function and each range. -/
theorem unpackUndoesPack : Obligations.UnpackUndoesPack := by
  refine ⟨unpackUc1_packUc1, unpackBorder_packBorder, unpackPatternPrimary_packPatternPrimary,
    unpackPatternSecondary_packPatternSecondary, fun r => unpackGate_halves r 0, ?_, ?_⟩
  · exact fun xs xe => ⟨rfl, rfl, unpackXRange_none_iff xs xe⟩
  · intro ys ye
    refine ⟨?_, ?_, unpackYRange_none_iff ys ye⟩ <;> rw [unpackYRange_halves]

/-! ### The window fields (R113, R114) -/

theorem xsField_eq_mod (left : Nat) : (xsField left).toNat = left / 8 % 256 := by
  simp only [xsField, trunc8, BitVec.toNat_ofInt]; omega

theorem xeField_eq_mod (left width : Nat) :
    ((xeField left width).toNat : Int) = ((left + width) / 8 - 1 : Int) % 256 := by
  simp only [xeField, trunc8, BitVec.toNat_ofInt]; omega

/-- The X counter holds what the start of a window at the same place would. -/
theorem cxField_eq_mod (x : Nat) : (cxField x).toNat = x / 8 % 256 := xsField_eq_mod x

/-- A window of width 0 ends one column below its start. -/
theorem xeField_zero_width (left : Nat) : xeField left 0 = xsField left - 1 := by
  have hxs := xsField_eq_mod left
  have hxe := xeField_eq_mod left 0
  apply BitVec.eq_of_toNat_eq
  rw [BitVec.toNat_sub, show (1 : Byte).toNat = 1 from rfl]
  omega

/-- Settles O11: inside the 256 columns neither field is reduced. -/
theorem windowUnpacksX : Obligations.WindowUnpacksX := by
  intro left width hl hw hpos hfit
  have hxs := xsField_eq_mod left.toNat
  have hxe := xeField_eq_mod left.toNat width.toNat
  have hle : (xsField left.toNat).toNat ≤ (xeField left.toNat width.toNat).toNat := by omega
  have hleft : 8 * (xsField left.toNat).toNat = left.toNat := by omega
  have hwidth : 8 * ((xeField left.toNat width.toNat).toNat - (xsField left.toNat).toNat + 1) = width.toNat := by omega
  rw [unpackXRange_of_le hle, hleft, hwidth]

/-- Settles O12: inside the 65536 rows the end is not reduced. -/
theorem windowUnpacksY : Obligations.WindowUnpacksY := by
  intro top height hpos hfit
  have hye : (top + height - 1).toNat = top.toNat + height.toNat - 1 := by bv_omega
  have hle : top ≤ top + height - 1 := BitVec.le_def.2 (by omega)
  have hheight : (top + height - 1).toNat - top.toNat + 1 = height.toNat := by omega
  rw [ysField_toNat, yeField_toNat, unpackYRange_halves, if_pos hle, hheight]

/-! ### `SET_H_RANGE` (R220) -/

/-- The request in `Idle`, aligned, with both transfers `Ok`. -/
theorem exec_setHRange_ok {l w : W16} {s : State} (hidle : s.lstate = .idle) (hl : l.toNat % 8 = 0)
    (hw : w.toNat % 8 = 0) (h : transfersOk 2 s) :
    exec (.setHRange l w) s = .next { s.wrote 0x44 [xsField l.toNat, xeField l.toNat w.toNat] with
      sh := { s.sh with xs := xsField l.toNat, xe := xeField l.toNat w.toNat, hv := true } }.answeredOk := by
  change execSetHRange l w s = _
  rw [execSetHRange, gated_idle hidle, hRange_aligned hl hw, frameXRange_ok (transfersOk_start _ h)]
  rfl

/-- Settles O60: the fields in arithmetic, and the one frame of a request that passes the gate and is aligned. -/
theorem horizontalFields : Obligations.HorizontalFields := by
  constructor
  · exact fun left width x =>
      ⟨xsField_eq_mod _, xeField_eq_mod _ _, cxField_eq_mod _, xeField_zero_width _, rfl⟩
  · intro s left width hidle hl hw h
    refine ⟨_, exec_setHRange_ok hidle hl hw h, rfl, ?_⟩
    rw [← hidle]
    rfl

end Sys2Proof.Machine

/-! The command channel (O16, O17, O18): both requests run one frame on a state whose shadows are invalid already (R44),
so each ending of the frame primitive gives the whole state the request leaves. -/

namespace Sys2Proof.Machine

variable {s : State} {c : Byte} {d : List Byte} {k code : Nat}

/-! ### The two requests -/

/-- The state in which a command channel request runs its frame: the request started, every shadow invalid (R44). -/
def State.channelOpened (tag : Byte) (s : State) : State := modifyShadow Shadow.invalidate (start tag s)

theorem exec_send (c : Byte) (d : List Byte) (s : State) :
    exec (.send c d) s = .next (answerOf (frameW c d (s.channelOpened 0x00))) := rfl

/-- What `RECEIVE` answers when its frame is known: the frame's status, its bytes in `RSP.DATA`. -/
theorem exec_receive_of_frameR {st : Status} {r : List Byte} {u : State}
    (h : frameR c k (s.channelOpened 0x01) = ((st, r), u)) :
    exec (.receive c k) s = .next (answer st (modifyBody (fun b => { b with data := r }) u)) := by
  have hr : execReceive c k s = .next (answer (frameR c k (s.channelOpened 0x01)).1.1
      (modifyBody (fun b => { b with data := (frameR c k (s.channelOpened 0x01)).1.2 })
        (frameR c k (s.channelOpened 0x01)).2)) := rfl
  rw [h] at hr
  exact hr

/-- Opening a request takes no transfer. -/
theorem transfersOk_channelOpened {n : Nat} (tag : Byte) (h : transfersOk n s) : transfersOk n (s.channelOpened tag) := h

/-! ### `SEND` (R140, R144) -/

theorem exec_send_ok (h : transfersOk (transfersOf d) s) :
    exec (.send c d) s = .next { s.wrote c d with sh := s.sh.invalidate }.answeredOk := by
  rw [exec_send, frameW_ok (transfersOk_channelOpened 0x00 h)]
  rfl

/-- The opcode transfer fails (R144 (a)). -/
theorem exec_send_opcodeFail (h : s.env.transfer s.env.xferPos = .fail code) :
    exec (.send c d) s = .next (State.answeredFail (.transportError code)
      { s.opcodeFailed c (Peer.touch c d) code with sh := s.sh.invalidate }) := by
  have h' : (s.channelOpened 0x00).env.transfer (s.channelOpened 0x00).env.xferPos = .fail code := h
  rw [exec_send, frameW_opcodeFail h']
  rfl

/-- The payload transfer fails (R144 (b)). -/
theorem exec_send_payloadFail (hd : d ≠ []) (h0 : s.env.transfer s.env.xferPos = .ok)
    (h1 : s.env.transfer (s.env.xferPos + 1) = .fail code) :
    exec (.send c d) s = .next (State.answeredFail (.transportError code)
      { s.payloadFailed c d code with sh := s.sh.invalidate }) := by
  have h0' : (s.channelOpened 0x00).env.transfer (s.channelOpened 0x00).env.xferPos = .ok := h0
  have h1' : (s.channelOpened 0x00).env.transfer ((s.channelOpened 0x00).env.xferPos + 1) = .fail code := h1
  rw [exec_send, frameW_payloadFail hd h0' h1']
  rfl

/-- Settles O16: the one frame of `SEND` is a whole write frame when its transfers are `Ok`. -/
theorem sendResult : Obligations.SendResult := fun _ _ _ h => exec_send_ok h

/-- Settles O18: each failing transfer determines the whole state after `SEND`, and the fields are read off it. -/
theorem sendFails : Obligations.SendFails := by
  intro s t c d code ht
  constructor
  · intro h
    obtain rfl := Host.Outcome.next.inj ((exec_send_opcodeFail h).symm.trans ht)
    exact ⟨rfl, rfl, rfl, rfl, rfl, rfl, rfl⟩
  · intro hd h0 h1
    obtain rfl := Host.Outcome.next.inj ((exec_send_payloadFail hd h0 h1).symm.trans ht)
    exact ⟨rfl, rfl, rfl, rfl, rfl, rfl, rfl⟩

/-! ### `RECEIVE` (R141) -/

theorem exec_receive_ok (hk : 0 < k) (h : transfersOk 2 s) :
    exec (.receive c k) s = .next { modifyBody (fun b => { b with data := (offered c k s).1 }) (s.didRead c k) with
      sh := s.sh.invalidate }.answeredOk :=
  exec_receive_of_frameR (frameR_ok hk (transfersOk_channelOpened 0x01 h))

/-- With no byte to receive the frame is a write frame without payload. -/
theorem exec_receive_zero (h : transfersOk 1 s) :
    exec (.receive c 0) s = .next { modifyBody (fun b => { b with data := [] }) (s.wrote c []) with
      sh := s.sh.invalidate }.answeredOk := by
  have hw : frameW c [] (s.channelOpened 0x01) = (.ok, (s.channelOpened 0x01).wrote c []) :=
    frameW_ok (transfersOk_channelOpened 0x01 h)
  have hr : frameR c 0 (s.channelOpened 0x01) = ((.ok, []), (s.channelOpened 0x01).wrote c []) := by
    rw [frameR_zero, hw]
  exact exec_receive_of_frameR hr

/-- Settles O17: with a byte to receive the frame reads, with none it is a write frame without payload. -/
theorem receiveResult : Obligations.ReceiveResult := fun _ _ =>
  ⟨fun _ hk h => exec_receive_ok hk h, exec_receive_zero⟩

end Sys2Proof.Machine

/-! The wire opcodes (O13, O14, O15) and the register encoders in `Idle` (O19 to O22). Each runs one frame, or two, and
answers with their status: one lemma for an instruction that runs its body at once and one for an instruction behind the
gate, then the two frame primitives put into each. -/

namespace Sys2Proof.Machine

variable {s t : State} {i : Instr} {op tag : Byte} {d : List Byte} {k : Nat} {body : State → Status × State}
  {f : List Byte → ResponseBody → ResponseBody}

/-! ### Instructions whose body ends `Ok` -/

/-- An instruction without a gate answers as its body ends (R142). -/
theorem exec_ok_of_body (he : exec i s = .next (answerOf (body s))) (hb : body s = (.ok, t)) :
    exec i s = .next t.answeredOk := by
  rw [he, hb]; rfl

/-- A gated instruction in `Idle` runs its body on the started request (R161). -/
theorem exec_ok_of_gated (hidle : s.lstate = .idle)
    (he : exec i s = .next (gated tag (fun u => answerOf (body u)) s)) (hb : body (start tag s) = (.ok, t)) :
    exec i s = .next t.answeredOk := by
  rw [he, gated_idle hidle, hb]; rfl

/-! ### One write frame -/

/-- The answer drops `SEQ`, the only field that the start of a request writes. -/
theorem answeredOk_wrote_start (g : Byte) (op : Byte) (d : List Byte) (s : State) :
    ((start g s).wrote op d).answeredOk = (s.wrote op d).answeredOk := rfl

theorem exec_ok_of_frameW (he : exec i s = .next (answerOf (frameW op d s))) (h : transfersOk (transfersOf d) s) :
    exec i s = .next (s.wrote op d).answeredOk :=
  exec_ok_of_body (body := frameW op d) he (frameW_ok h)

/-- The payload is what the body makes of the started request, so it may depend on the configuration (R163). -/
theorem exec_ok_of_gated_frameW (hidle : s.lstate = .idle)
    (he : exec i s = .next (gated tag (fun u => answerOf (body u)) s))
    (hb : body (start tag s) = frameW op d (start tag s)) (h : transfersOk (transfersOf d) s) :
    exec i s = .next (s.wrote op d).answeredOk := by
  have hw : frameW op d (start tag s) = (.ok, (start tag s).wrote op d) := frameW_ok (transfersOk_start tag h)
  rw [exec_ok_of_gated hidle he (hb.trans hw), answeredOk_wrote_start]

/-! ### One read frame -/

/-- A read frame whose received bytes are put into the response. -/
def frameRInto (op : Byte) (k : Nat) (f : List Byte → ResponseBody → ResponseBody) (s : State) : Status × State :=
  ((frameR op k s).1.1, modifyBody (f (frameR op k s).1.2) (frameR op k s).2)

theorem frameRInto_ok (hk : 0 < k) (h : transfersOk 2 s) :
    frameRInto op k f s = (.ok, modifyBody (f (offered op k s).1) (s.didRead op k)) := by
  rw [frameRInto, frameR_ok hk h]

theorem answeredOk_didRead_start (g : Byte) (op : Byte) (k : Nat) (f : List Byte → ResponseBody → ResponseBody)
    (s : State) :
    (modifyBody (f (offered op k (start g s)).1) ((start g s).didRead op k)).answeredOk =
      (modifyBody (f (offered op k s).1) (s.didRead op k)).answeredOk := rfl

theorem exec_ok_of_frameR (he : exec i s = .next (answerOf (frameRInto op k f s))) (hk : 0 < k)
    (h : transfersOk 2 s) :
    exec i s = .next (modifyBody (f (offered op k s).1) (s.didRead op k)).answeredOk :=
  exec_ok_of_body (body := frameRInto op k f) he (frameRInto_ok hk h)

theorem exec_ok_of_gated_frameR (hidle : s.lstate = .idle)
    (he : exec i s = .next (gated tag (fun u => answerOf (body u)) s))
    (hb : body (start tag s) = frameRInto op k f (start tag s)) (hk : 0 < k) (h : transfersOk 2 s) :
    exec i s = .next (modifyBody (f (offered op k s).1) (s.didRead op k)).answeredOk := by
  rw [exec_ok_of_gated hidle he (hb.trans (frameRInto_ok hk (transfersOk_start tag h))), answeredOk_didRead_start]

/-! ### Wire opcodes (R180 to R205) -/

/-- Settles O13: each of the 17 opcodes hands its one frame over at once, and the frame is whole. -/
theorem wirePlainResults : Obligations.WirePlainResults := fun _ =>
  ⟨fun _ _ h => exec_ok_of_frameW rfl h, fun _ h => exec_ok_of_frameW rfl h, fun _ h => exec_ok_of_frameW rfl h,
    fun _ _ _ _ h => exec_ok_of_frameW rfl h, fun _ h => exec_ok_of_frameW rfl h, fun _ h => exec_ok_of_frameW rfl h,
    fun h => exec_ok_of_frameW rfl h, fun _ h => exec_ok_of_frameW rfl h, fun h => exec_ok_of_frameW rfl h,
    fun _ h => exec_ok_of_frameW rfl h, fun _ h => exec_ok_of_frameW rfl h, fun _ h => exec_ok_of_frameW rfl h,
    fun _ h => exec_ok_of_frameW rfl h, fun _ h => exec_ok_of_frameW rfl h, fun _ h => exec_ok_of_frameW rfl h,
    fun _ h => exec_ok_of_frameW rfl h, fun h => exec_ok_of_frameW rfl h⟩

/-- Settles O14: each opcode is one tracked frame or one bulk write, which writes its shadow group. -/
theorem wireWindowResults : Obligations.WireWindowResults := by
  intro s
  refine ⟨fun a b h => ?xRange, fun a b h => ?yRange, fun x h => ?xCounter, fun y h => ?yCounter,
    fun d h => ?writePrimary, fun d h => ?writeSecondary⟩
  case xRange => exact exec_ok_of_body (body := frameXRange a b) rfl (frameXRange_ok h)
  case yRange => exact exec_ok_of_body (body := frameYRange a b) rfl (frameYRange_ok h)
  case xCounter => exact exec_ok_of_body (body := frameXCounter x) rfl (frameXCounter_ok h)
  case yCounter => exact exec_ok_of_body (body := frameYCounter y) rfl (frameYCounter_ok h)
  case writePrimary => exact exec_ok_of_body (body := bulkWrite 0x24 d) rfl (bulkWrite_ok h)
  case writeSecondary => exact exec_ok_of_body (body := bulkWrite 0x26 d) rfl (bulkWrite_ok h)

/-- The bulk read of a plane: the dummy bytes dropped, both counter shadows invalid (R194, R43). -/
theorem exec_opReadRam_ok (n : Nat) (h : transfersOk 2 s) :
    exec (.opReadRam n) s =
      .next { modifyBody (fun b => { b with data := (offered 0x27 (2 + n) s).1.drop 2 }) (s.didRead 0x27 (2 + n)) with
        sh := { s.sh with cxv := false, cyv := false } }.answeredOk := by
  change execOpReadRam n s = _
  rw [execOpReadRam, bulkRead_ok h]
  rfl

/-- Settles O15: two opcodes are one read frame, the third is the bulk read. -/
theorem wireReadResults : Obligations.WireReadResults := by
  intro s h
  refine ⟨?tempRead, ?readUserId, fun n => exec_opReadRam_ok n h⟩
  case tempRead =>
    exact exec_ok_of_frameR (f := fun r b => { b with value := temperature s.cfg r }) rfl (by decide) h
  case readUserId =>
    exact exec_ok_of_frameR (f := fun r b => { b with data := r }) rfl (by decide) h

/-! ### Payloads of the encoders (R117, R170, R172) -/

/-- The transition flag has no bit in common with the colour code. -/
theorem packBorder_eq_add (c : Color) : packBorder c = 4 + (colorCode c).setWidth 8 := by cases c <;> rfl

theorem bankCode_eq_ite (b : Bank) : bankCode b = if b = .black then 0x00 else 0x01 := by cases b <;> rfl

theorem temperature_toNat (c : Cfg) (r0 r1 : Byte) :
    (temperature c [r0, r1]).toNat =
      (if c.tempFirstByteIsHigh then 256 * r0.toNat + r1.toNat else r0.toNat + 256 * r1.toNat) / 16 := by
  have hshift (v : W16) : (v >>> 4).toNat = v.toNat / 16 := by
    rw [BitVec.toNat_ushiftRight, Nat.shiftRight_eq_div_pow]
  rw [temperature, hshift]
  split
  · rw [ofLoHi_toNat, Nat.add_comm]; rfl
  · rw [ofLoHi_toNat]; rfl

/-! ### Encoder requests (R160 to R177) -/

/-- Settles O19: behind the gate each request hands its one frame over; three encoders write their payload in another
form than the statement. -/
theorem encoderResults : Obligations.EncoderResults := by
  intro s hidle
  refine ⟨fun h => ?updateCtrl1, fun h => exec_ok_of_gated_frameW hidle rfl rfl h, fun c h => ?border,
    fun _ _ _ h => exec_ok_of_gated_frameW hidle rfl rfl h, fun _ _ _ h => exec_ok_of_gated_frameW hidle rfl rfl h,
    fun _ h => exec_ok_of_gated_frameW hidle rfl rfl h, fun b h => ?ramBankSelect,
    fun h => exec_ok_of_gated_frameW hidle rfl rfl h, fun h => exec_ok_of_gated_frameW hidle rfl rfl h,
    fun h => exec_ok_of_gated_frameW hidle rfl rfl h, fun h => exec_ok_of_gated_frameW hidle rfl rfl h,
    fun h => exec_ok_of_gated_frameW hidle rfl rfl h⟩
  case updateCtrl1 =>
    rw [← le16_uc1Of]
    exact exec_ok_of_gated_frameW hidle rfl rfl h
  case border =>
    rw [← packBorder_eq_add]
    exact exec_ok_of_gated_frameW hidle rfl rfl h
  case ramBankSelect =>
    rw [← bankCode_eq_ite]
    exact exec_ok_of_gated_frameW hidle rfl rfl h

/-- Both frames of the gate scan range, the order byte 0 (R162). -/
theorem gateScanBody_ok {a b : W16} (h : transfersOk 4 s) :
    gateScanBody a b s = (.ok, s.wroteAll [(0x0F, [lo8 a, hi8 a]), (0x01, [lo8 b, hi8 b, 0x00])]) := by
  have hstart : transfersOk 2 s := transfersOk_mono (by decide) h
  have hend : transfersOk 2 (s.wrote 0x0F (le16 a)) := transfersOk_wrote (d := le16 a) (n := 2) h
  rw [gateScanBody, andThen_frameW (d := le16 a) hstart]
  exact frameW_ok (d := [lo8 b, hi8 b, 0x00]) hend

/-- Settles O20: behind the gate the two frames are whole. -/
theorem gateScanRangeResult : Obligations.GateScanRangeResult := by
  intro s a b hidle h
  have hb := gateScanBody_ok (a := a) (b := b) (transfersOk_start 0x02 h)
  rw [exec_ok_of_gated (body := gateScanBody a b) hidle rfl hb]
  rfl

/-- Settles O21: exactly two bytes are received, and the assembled number is shifted right by 4. -/
theorem readTemperatureResult : Obligations.ReadTemperatureResult := by
  intro s hidle h
  obtain ⟨r0, r1, hr⟩ := List.length_eq_two.1 (offered_length 0x1B 2 s)
  refine ⟨r0, r1, temperature s.cfg [r0, r1], hr, temperature_toNat s.cfg r0 r1, ?_⟩
  rw [← hr]
  exact exec_ok_of_gated_frameR (tag := 0x0B) (f := fun r b => { b with value := temperature s.cfg r }) hidle rfl rfl
    (by decide) h

/-- Settles O22: the frame receives `userIdLen` bytes, and the response holds all of them. -/
theorem readUserIdResult : Obligations.ReadUserIdResult := by
  intro s hidle h
  refine ⟨_, rfl, offered_length 0x2E 10 s, ?_⟩
  exact exec_ok_of_gated_frameR (tag := 0x0F) (f := fun r b => { b with data := r }) hidle rfl rfl (by decide) h

end Sys2Proof.Machine

/-! The address window requests (O23, O24, O25): behind the gate each runs one or two tracked frames, so the endings of
the write frame primitive give the whole state each request leaves. -/

namespace Sys2Proof.Machine

variable {s t u : State} {i : Instr} {tag : Byte} {st : Status} {x y : W16} {code : Nat} {body : State → Status × State}

/-! ### Bodies with the transfers `Ok` (R225, R223) -/

theorem vRange_ok {top height : W16} (h : transfersOk 2 s) :
    vRange top.toNat height.toNat s = (.ok, { s.wrote 0x45 (le16 top ++ le16 (top + height - 1)) with
      sh := { s.sh with ys := top, ye := top + height - 1, vv := true } }) := by
  rw [vRange, ysField_toNat, yeField_toNat, frameYRange_ok h]

/-- A sequence whose last step does nothing ends as the step before it. -/
theorem andThen_done (r : Status × State) : andThen r (Prod.mk .ok) = r := by
  rcases andThen_cases r (Prod.mk .ok) with ⟨hok, e⟩ | ⟨-, e⟩
  · rw [e, ← hok]
  · exact e

/-- The shadows of the window over the whole resolution (R223). -/
theorem window_fullRange (w h : W16) (sh : Shadow) :
    sh.window 0 0 w.toNat h.toNat =
      { sh with xs := 0, xe := xeField 0 w.toNat, hv := true, ys := 0, ye := h - 1, vv := true } := by
  rw [Shadow.window, ysField_toNat, yeField_toNat, zero_add]
  rfl

/-! ### The requests with the transfers `Ok` (R221, R222, R223) -/

theorem exec_setVRange_ok {top height : W16} (hidle : s.lstate = .idle) (h : transfersOk 2 s) :
    exec (.setVRange top height) s = .next { s.wrote 0x45 (le16 top ++ le16 (top + height - 1)) with
      sh := { s.sh with ys := top, ye := top + height - 1, vv := true } }.answeredOk := by
  rw [exec_ok_of_gated (body := vRange top.toNat height.toNat) hidle rfl (vRange_ok (transfersOk_start 0x12 h))]
  rfl

theorem exec_setStartAddress_ok (hidle : s.lstate = .idle) (hx : x.toNat % 8 = 0) (h : transfersOk 4 s) :
    exec (.setStartAddress x y) s = .next { s.wroteAll (counterFrames x y) with
      sh := { s.sh with cx := cxField x.toNat, cy := y, cxv := true, cyv := true } }.answeredOk := by
  rw [exec_ok_of_gated (body := startAddr x y) hidle rfl (startAddr_ok hx (transfersOk_start 0x13 h))]
  rfl

/-- Settles O23: each request passes the gate and the alignment check, and its frames are whole. -/
theorem windowResults : Obligations.WindowResults := by
  intro s hidle
  refine ⟨fun l w hl hw h => ?hRange, fun top height h => exec_setVRange_ok hidle h, fun x y hx h => ?startAddress⟩
  case hRange => exact ⟨_, _, xsField_eq_mod l.toNat, xeField_eq_mod l.toNat w.toNat, exec_setHRange_ok hidle hl hw h⟩
  case startAddress => exact ⟨_, cxField_eq_mod x.toNat, exec_setStartAddress_ok hidle hx h⟩

/-- Settles O24: column 0 and, by well-formedness, the resolution are aligned, so both range frames are sent. -/
theorem resetFullRangeResult : Obligations.ResetFullRangeResult := by
  intro s hwf hidle h
  have hranges := ranges_ok (l := 0) (t := 0) (h := s.cfg.resY.toNat) rfl (Cfg.wf_resX hwf) (transfersOk_start 0x14 h)
    (Prod.mk .ok)
  simp only [andThen_done] at hranges
  rw [exec_ok_of_gated (body := fun v => andThen (hRange 0 v.cfg.resX.toNat v) (vRange 0 v.cfg.resY.toNat)) hidle rfl
    hranges, window_fullRange]
  rfl

/-! ### Failing counter frames (R44, R226) -/

theorem frameXCounter_fail {cx : Byte} (h : frameW 0x4E [cx] s = (.transportError code, u)) :
    frameXCounter cx s = (.transportError code, { u with sh := { u.sh with cxv := false } }) := by
  simp only [frameXCounter, h]
  rfl

theorem frameYCounter_fail (h : frameW 0x4F (le16 y) s = (.transportError code, u)) :
    frameYCounter y s = (.transportError code, { u with sh := { u.sh with cyv := false } }) := by
  simp only [frameYCounter, h]
  rfl

/-- The state between the two frames of a start address: the X frame whole, its shadow group written (R226). -/
def State.columnSet (x : W16) (s : State) : State :=
  { s.wrote 0x4E [cxField x.toNat] with sh := { s.sh with cx := cxField x.toNat, cxv := true } }

/-- Where the X frame fails the Y frame is not sent. -/
theorem startAddr_xFail (hx : x.toNat % 8 = 0)
    (h : frameW 0x4E [cxField x.toNat] s = (.transportError code, u)) :
    startAddr x y s = (.transportError code, { u with sh := { u.sh with cxv := false } }) := by
  rw [startAddr_aligned hx, frameXCounter_fail h, andThen_transportError]

theorem startAddr_yFail (hx : x.toNat % 8 = 0) (h2 : transfersOk 2 s)
    (h : frameW 0x4F (le16 y) (s.columnSet x) = (.transportError code, u)) :
    startAddr x y s = (.transportError code, { u with sh := { u.sh with cyv := false } }) := by
  rw [startAddr_aligned hx, frameXCounter_ok h2, andThen_ok]
  exact frameYCounter_fail h

/-! ### `SET_START_ADDRESS` with a failing transfer (R222, R144) -/

/-- A gated request in `Idle` answers the status with which its body stops (R333). -/
theorem exec_fail_of_gated (hidle : s.lstate = .idle)
    (he : exec i s = .next (gated tag (fun v => answerOf (body v)) s)) (hst : st ≠ .ok)
    (hb : body (start tag s) = (st, t)) : exec i s = .next (t.answeredFail st) := by
  rw [he, gated_idle hidle, hb]
  exact congrArg Host.Outcome.next (answer_fail t hst)

/-- What the failing body leaves is what the request leaves, the answer apart. -/
theorem exec_setStartAddress_fail (hidle : s.lstate = .idle)
    (hb : startAddr x y (start 0x13 s) = (.transportError code, u)) :
    exec (.setStartAddress x y) s = .next (u.answeredFail (.transportError code)) :=
  exec_fail_of_gated (body := startAddr x y) hidle rfl Status.noConfusion hb

theorem append_stamp_stamp (tr : List (LState × Event)) (l : LState) (es fs : List Event) :
    tr ++ stamp l es ++ stamp l fs = tr ++ stamp l (es ++ fs) := by
  rw [stamp_append, List.append_assoc]

/-- Settles O25: the failing transfer decides which of the two frames stops and where, the frame primitive gives the
state it leaves, and the fields are read off the answer. -/
theorem startAddressFails : Obligations.StartAddressFails := by
  intro s t x y code hidle hx ht
  have answered {u : State} (hb : startAddr x y (start 0x13 s) = (.transportError code, u)) :
      t = u.answeredFail (.transportError code) :=
    Host.Outcome.next.inj (ht.symm.trans (exec_setStartAddress_fail hidle hb))
  rw [← hidle]
  refine ⟨fun h0 => ?xOpcode, fun h1 h => ?xPayload, fun h2 h => ?yOpcode, fun h3 h => ?yPayload⟩
  case xOpcode =>
    obtain rfl := answered (startAddr_xFail hx (frameW_opcodeFail h0))
    exact ⟨rfl, rfl, rfl, rfl, rfl⟩
  case xPayload =>
    have h0 : s.env.transfer s.env.xferPos = .ok := h1 0 (by decide)
    obtain rfl := answered (startAddr_xFail hx (frameW_payloadFail (List.cons_ne_nil _ _) h0 h))
    exact ⟨rfl, rfl, rfl, rfl, rfl⟩
  case yOpcode =>
    obtain rfl := answered (startAddr_yFail hx h2 (frameW_opcodeFail h))
    exact ⟨rfl, rfl, append_stamp_stamp _ _ _ _, rfl, rfl⟩
  case yPayload =>
    have h2 : s.env.transfer (s.env.xferPos + 2) = .ok := h3 2 (by decide)
    obtain rfl := answered (startAddr_yFail hx (transfersOk_mono (by decide) h3)
      (frameW_payloadFail (List.cons_ne_nil _ _) h2 h))
    exact ⟨rfl, rfl, append_stamp_stamp _ _ _ _, rfl, rfl⟩

end Sys2Proof.Machine

/-! The region transfers away from the peer (O26, O28, O29): the whole state after the frames of `WRITE_REGION` and of
`READ_REGION` when every transfer is `Ok`, and the length of a plane's result wherever `READ_REGION` ends `Ok`. -/

namespace Sys2Proof.Machine

variable {s u : State} {l t w h : W16} {n : Nat} {b c : Bank} {a d : Bool}

/-! ### `WRITE_REGION` with the transfers `Ok` (R241, R242) -/

/-- A buffer contract that is kept lets the request pass to its gate (R23). -/
theorem exec_writeRegion_gated {p q : Option (List Byte)} (hc : writeRegionOk w h p q = true) :
    exec (.writeRegion l t w h p q) s =
      .next (gated 0x15 (fun v => answerOf (writeRegionBody l t w h p q v)) s) := if_pos hc

/-- Settles O26: past the contract and the gate, the body on the started request sends every frame whole. -/
theorem writeRegionResult : Obligations.WriteRegionResult := by
  intro s l t w h p q hidle hc hl hw hok
  have hbody := writeRegionBody_ok (h := h) hl hw (transfersOk_start 0x15 hok)
  rw [exec_ok_of_gated (body := writeRegionBody l t w h p q) hidle (exec_writeRegion_gated hc) hbody,
    answeredOk_wroteAll_start, start_sh]

/-! ### `READ_REGION` with the transfers `Ok` (R245 to R247) -/

theorem readPlane_unwanted (b : Bank) (l t : W16) (n : Nat) (s : State) : readPlane b false l t n s = (.ok, s) := rfl

/-- After both range frames each wanted plane is read in turn. -/
theorem readRegionBody_window (hl : l.toNat % 8 = 0) (hw : w.toNat % 8 = 0) (hok : transfersOk 4 s) :
    readRegionBody l t w h a d s =
      andThen (readPlane .black a l t (w.toNat / 8 * h.toNat)
          { s.wroteAll (windowFrames l t w.toNat h.toNat) with sh := s.sh.window l t w.toNat h.toNat })
        (readPlane .red d l t (w.toNat / 8 * h.toNat)) := by
  rw [readRegionBody, if_pos ⟨(aligned_iff _).2 hl, (aligned_iff _).2 hw⟩, ranges_ok hl hw hok]
  rfl

/-- With no plane wanted the range frames are all. -/
theorem readRegionBody_none_ok (hl : l.toNat % 8 = 0) (hw : w.toNat % 8 = 0) (hok : transfersOk 4 s) :
    readRegionBody l t w h false false s =
      (.ok, { s.wroteAll (windowFrames l t w.toNat h.toNat) with sh := s.sh.window l t w.toNat h.toNat }) := by
  rw [readRegionBody_window hl hw hok, readPlane_unwanted, andThen_ok, readPlane_unwanted]

/-- The second plane's read starts where the first one's ended, whose result is already in the response. -/
theorem readPlanes_ok {v : State} {sh : Shadow} (hl : l.toNat % 8 = 0) (hok : transfersOk 16 v) :
    andThen (readPlane .black true l t n { v with sh := sh }) (readPlane .red true l t n) =
      (.ok, modifyBody (putPlane .red ((v.fetched .black l t n).fetchedData .red l t n))
        (modifyBody (putPlane .black (v.fetchedData .black l t n))
          { (v.fetched .black l t n).fetched .red l t n with sh := sh.moved l t })) := by
  have hfetched : transfersOk 8 (v.fetched .black l t n) := transfersOk_fetched hok
  have hred : transfersOk 8 (modifyBody (putPlane .black (v.fetchedData .black l t n))
      { v.fetched .black l t n with sh := sh.moved l t }) := (transfersOk_congr rfl rfl).2 hfetched
  rw [readPlane_withShadow hl (transfersOk_mono (by decide) hok), andThen_ok, readPlane_ok hl hred,
    fetchedData_modify, fetched_modify]
  rfl

/-- With both planes wanted the two reads follow the range frames. -/
theorem readRegionBody_both_ok (hl : l.toNat % 8 = 0) (hw : w.toNat % 8 = 0) (hok : transfersOk 20 s) :
    let v := s.wroteAll (windowFrames l t w.toNat h.toNat)
    let n := w.toNat / 8 * h.toNat
    readRegionBody l t w h true true s =
      (.ok, modifyBody (putPlane .red ((v.fetched .black l t n).fetchedData .red l t n))
        (modifyBody (putPlane .black (v.fetchedData .black l t n))
          { (v.fetched .black l t n).fetched .red l t n with sh := (s.sh.window l t w.toNat h.toNat).moved l t })) := by
  have hplanes : transfersOk 16 (s.wroteAll (windowFrames l t w.toNat h.toNat)) := transfersOk_wroteAll hok
  exact (readRegionBody_window hl hw (transfersOk_mono (by decide) hok)).trans (readPlanes_ok hl hplanes)

/-- A request that ran `READ_REGION`'s body to an `Ok` end. -/
theorem exec_readRegion_ok (hidle : s.lstate = .idle) (hbody : readRegionBody l t w h a d (start 0x16 s) = (.ok, u)) :
    exec (.readRegion l t w h a d) s = .next u.answeredOk :=
  exec_ok_of_gated (body := readRegionBody l t w h a d) hidle rfl hbody

/-- A plane's read looks at `SEQ` no more than at the shadows. -/
theorem fetchedData_withSeq (q : Option Seq) (b : Bank) (l t : W16) (n : Nat) (s : State) :
    State.fetchedData b l t n { s with seq := q } = s.fetchedData b l t n := rfl

theorem fetched_withSeq (q : Option Seq) (b : Bank) (l t : W16) (n : Nat) (s : State) :
    ∃ r, State.fetched b l t n { s with seq := q } = { s.fetched b l t n with seq := r } := ⟨_, rfl⟩

/-- One plane wanted: the answer drops `SEQ`, the only field that the start of the request wrote. -/
theorem exec_readRegion_plane_ok (plane : Bank) (hidle : s.lstate = .idle) (hl : l.toNat % 8 = 0) (hw : w.toNat % 8 = 0)
    (hok : transfersOk 12 s) :
    let v := s.wroteAll (windowFrames l t w.toNat h.toNat)
    let n := w.toNat / 8 * h.toNat
    exec (.readRegion l t w h (decide (plane = .black)) (decide (plane = .red))) s =
      .next { modifyBody (putPlane plane (v.fetchedData plane l t n)) (v.fetched plane l t n) with
        sh := (s.sh.window l t w.toNat h.toNat).moved l t }.answeredOk := by
  intro v n
  rw [exec_readRegion_ok hidle (readRegionBody_ok plane hl hw (transfersOk_start 0x16 hok)), wroteAll_start,
    fetchedData_withSeq]
  obtain ⟨q, hq⟩ := fetched_withSeq (some ⟨0x16, eventsOfAll s.cfg (windowFrames l t w.toNat h.toNat)⟩) plane l t n v
  rw [hq]
  rfl

/-- Both planes wanted. -/
theorem exec_readRegion_both_ok (hidle : s.lstate = .idle) (hl : l.toNat % 8 = 0) (hw : w.toNat % 8 = 0)
    (hok : transfersOk 20 s) :
    let v := s.wroteAll (windowFrames l t w.toNat h.toNat)
    let n := w.toNat / 8 * h.toNat
    exec (.readRegion l t w h true true) s =
      .next { modifyBody (putPlane .red ((v.fetched .black l t n).fetchedData .red l t n))
          (modifyBody (putPlane .black (v.fetchedData .black l t n)) ((v.fetched .black l t n).fetched .red l t n)) with
        sh := (s.sh.window l t w.toNat h.toNat).moved l t }.answeredOk := by
  intro v n
  rw [exec_readRegion_ok hidle (readRegionBody_both_ok hl hw (transfersOk_start 0x16 hok)), wroteAll_start,
    fetchedData_withSeq]
  obtain ⟨q, hq⟩ := fetched_withSeq (some ⟨0x16, eventsOfAll s.cfg (windowFrames l t w.toNat h.toNat)⟩) .black l t n v
  obtain ⟨r, hr⟩ := fetched_withSeq q .red l t n (v.fetched .black l t n)
  rw [hq, fetchedData_withSeq, hr]
  rfl

/-- Settles O28: for each choice of planes every frame of the body is whole. -/
theorem readRegionResult : Obligations.ReadRegionResult := by
  intro s l t w h hidle hl hw
  refine ⟨fun hok => ?neither, fun hok => ?primary, fun hok => ?secondary, fun hok => ?both⟩
  case neither =>
    rw [exec_readRegion_ok hidle (readRegionBody_none_ok hl hw (transfersOk_start 0x16 hok)),
      answeredOk_wroteAll_start, start_sh]
  case primary => exact exec_readRegion_plane_ok .black hidle hl hw hok
  case secondary => exact exec_readRegion_plane_ok .red hidle hl hw hok
  case both => exact exec_readRegion_both_ok hidle hl hw hok

/-! ### What frames leave of the response -/

@[simp] theorem frameW_rsp (op : Byte) (e : List Byte) (s : State) : (frameW op e s).2.rsp = s.rsp := by
  rcases frameW_cases op e s with ⟨-, he⟩ | ⟨_, -, he⟩ | ⟨_, -, -, -, he⟩ <;> rw [he] <;> rfl

@[simp] theorem frameR_rsp (op : Byte) (k : Nat) (s : State) : (frameR op k s).2.rsp = s.rsp := by
  rcases Nat.eq_zero_or_pos k with rfl | hk
  · rw [frameR_zero]; exact frameW_rsp op [] s
  · rcases frameR_cases op s hk with ⟨-, e⟩ | ⟨_, -, e⟩ | ⟨_, -, -, e⟩ <;> rw [e] <;> rfl

@[simp] theorem bulkRead_rsp (n : Nat) (s : State) : (bulkRead n s).2.rsp = s.rsp := frameR_rsp _ _ _

theorem andThen_rsp {r : Status × State} {k : State → Status × State} (hk : ∀ v, (k v).2.rsp = v.rsp) :
    (andThen r k).2.rsp = r.2.rsp := by
  rcases andThen_cases r k with ⟨-, e⟩ | ⟨-, e⟩ <;> rw [e]
  exact hk r.2

@[simp] theorem startAddr_rsp (x y : W16) (s : State) : (startAddr x y s).2.rsp = s.rsp := by
  by_cases hx : x.toNat % 8 = 0
  · rw [startAddr_aligned hx]
    calc (andThen (frameXCounter (cxField x.toNat) s) (frameYCounter y)).2.rsp
        = (frameXCounter (cxField x.toNat) s).2.rsp := andThen_rsp fun v => frameW_rsp 0x4F (le16 y) v
      _ = s.rsp := frameW_rsp 0x4E _ s
  · rw [startAddr_misaligned hx]

/-! ### The length of a plane's result (R245, R246) -/

/-- A sequence that ends `Ok` ended its first step so and has run its second. -/
theorem andThen_ok_inv {r : Status × State} {k : State → Status × State} (hok : (andThen r k).1 = .ok) :
    r.1 = .ok ∧ andThen r k = k r.2 := by
  rcases andThen_cases r k with hran | ⟨hfail, e⟩
  · exact hran
  · exact absurd (e ▸ hok) hfail

/-- A read frame that ends `Ok` has received every byte it asked for. -/
theorem frameR_length_of_ok {op : Byte} {k : Nat} (hok : (frameR op k s).1.1 = .ok) :
    (frameR op k s).1.2.length = k := by
  rcases Nat.eq_zero_or_pos k with rfl | hk
  · rw [frameR_zero]; rfl
  · rcases frameR_cases op s hk with ⟨-, e⟩ | ⟨code, -, e⟩ | ⟨code, -, -, e⟩ <;> rw [e] at hok ⊢
    · exact offered_length op k s
    all_goals cases hok

theorem bulkRead_length_of_ok (hok : (bulkRead n s).1.1 = .ok) : (bulkRead n s).1.2.length = n := by
  have hlen := frameR_length_of_ok (op := 0x27) (k := Config.dummyReadBytes + n) hok
  exact (List.length_drop).trans (by rw [hlen, Nat.add_sub_cancel_left])

theorem planeData_putPlane_ne (hcb : c ≠ b) (e : List Byte) (r : ResponseBody) :
    planeData c (putPlane b e r) = planeData c r := by
  cases b with
  | black =>
    cases c with
    | black => exact absurd rfl hcb
    | red => rfl
  | red =>
    cases c with
    | black => rfl
    | red => exact absurd rfl hcb

/-- The read of one plane leaves the other plane's result alone, however it ends. -/
theorem planeData_readInto_ne (hcb : c ≠ b) : planeData c (readInto b n s).2.rsp.body = planeData c s.rsp.body := by
  by_cases hok : (bulkRead n s).1.1 = .ok
  · simp [readInto, hok, planeData_putPlane_ne hcb]
  · simp [readInto, hok]

theorem planeData_readInto_length (hok : (readInto b n s).1 = .ok) :
    (planeData b (readInto b n s).2.rsp.body).length = n := by
  have hbulk : (bulkRead n s).1.1 = .ok := hok
  simp [readInto, hbulk, planeData_putPlane, bulkRead_length_of_ok]

/-- The frames of one plane leave the other plane's result alone, however they end. -/
theorem planeData_readPlane_ne (want : Bool) (hcb : c ≠ b) :
    planeData c (readPlane b want l t n s).2.rsp.body = planeData c s.rsp.body := by
  cases want with
  | false => rfl
  | true =>
    rw [readPlane, if_pos rfl]
    rcases andThen_cases (bankBody b s) _ with ⟨-, e⟩ | ⟨-, e⟩ <;> rw [e]
    · rcases andThen_cases (startAddr l t (bankBody b s).2) (readInto b n) with ⟨-, e⟩ | ⟨-, e⟩ <;> rw [e]
      · rw [planeData_readInto_ne hcb, startAddr_rsp, bankBody, frameW_rsp]
      · rw [startAddr_rsp, bankBody, frameW_rsp]
    · rw [bankBody, frameW_rsp]

/-- The frames of a wanted plane end `Ok` only with the read, which leaves the plane's result. -/
theorem planeData_readPlane_length (hok : (readPlane b true l t n s).1 = .ok) :
    (planeData b (readPlane b true l t n s).2.rsp.body).length = n := by
  rw [readPlane, if_pos rfl] at hok ⊢
  obtain ⟨-, hbank⟩ := andThen_ok_inv hok
  rw [hbank] at hok ⊢
  obtain ⟨-, hplace⟩ := andThen_ok_inv hok
  rw [hplace] at hok ⊢
  exact planeData_readInto_length hok

/-- A body of `READ_REGION` that ends `Ok` ended with both planes' steps, each of them `Ok`. -/
theorem readRegionBody_planes_of_ok (hok : (readRegionBody l t w h a d s).1 = .ok) :
    ∃ v, (readPlane .black a l t (w.toNat / 8 * h.toNat) v).1 = .ok ∧
      readRegionBody l t w h a d s =
        readPlane .red d l t (w.toNat / 8 * h.toNat) (readPlane .black a l t (w.toNat / 8 * h.toNat) v).2 := by
  unfold readRegionBody at hok ⊢
  split at hok
  case isFalse => cases hok
  case isTrue hal =>
    rw [if_pos hal]
    obtain ⟨-, hcolumns⟩ := andThen_ok_inv hok
    rw [hcolumns] at hok ⊢
    obtain ⟨-, hrows⟩ := andThen_ok_inv hok
    rw [hrows] at hok ⊢
    exact ⟨_, andThen_ok_inv hok⟩

theorem readRegionBody_lengths (hok : (readRegionBody l t w h a d s).1 = .ok) :
    (a = true → (readRegionBody l t w h a d s).2.rsp.body.p.length = w.toNat / 8 * h.toNat) ∧
      (d = true → (readRegionBody l t w h a d s).2.rsp.body.s.length = w.toNat / 8 * h.toNat) := by
  obtain ⟨v, hblack, e⟩ := readRegionBody_planes_of_ok hok
  rw [e] at hok ⊢
  constructor
  · rintro rfl
    have hkept := planeData_readPlane_ne (b := .red) (c := .black) (l := l) (t := t) (n := w.toNat / 8 * h.toNat)
      (s := (readPlane .black true l t (w.toNat / 8 * h.toNat) v).2) d (by decide)
    exact (congrArg List.length hkept).trans (planeData_readPlane_length hblack)
  · rintro rfl
    exact planeData_readPlane_length hok

/-- A gated request that ends `Ok` has passed the gate, run its body to an `Ok` end and shows that end's response
fields. -/
theorem gated_ok_inv {g : Byte} {body : State → Status × State}
    (he : (Host.Outcome.next (gated g (fun v => answerOf (body v)) s) : Host.Outcome State Fault Refusal) = .next u)
    (hok : u.rsp.status = .ok) : (body (start g s)).1 = .ok ∧ u.rsp.body = (body (start g s)).2.rsp.body := by
  obtain rfl := Host.Outcome.next.inj he
  by_cases hidle : s.lstate = .idle
  · rw [gated_idle hidle] at hok ⊢
    have hbody : (body (start g s)).1 = .ok := (answer_status _ _).symm.trans hok
    refine ⟨hbody, ?_⟩
    rw [answerOf, hbody]
    rfl
  · rw [gated_not_idle hidle] at hok
    cases hok

/-- Settles O29: an `Ok` end is an `Ok` end of the body, in which every wanted plane's read received all its bytes. -/
theorem readRegionLengths : Obligations.ReadRegionLengths := by
  intro s u l t w h a d he hok
  obtain ⟨hbody, hfields⟩ := gated_ok_inv (body := readRegionBody l t w h a d) he hok
  rw [hfields]
  exact readRegionBody_lengths hbody

end Sys2Proof.Machine

/-! The lifecycle requests (O32 to O38, O40): `RESET` is the pulse; `INIT`, `REFRESH` and `BUSY_WAIT` come to a
busy-wait, and each turn of it either leaves them at their next poll or takes them to their end. -/

namespace Sys2Proof.Machine

variable {s t : State} {q : Seq} {r : Status × State} {k : State → Status × State} {st : Status} {tag : Byte}
  {code m n j : Nat}

/-! ### `RESET` (R260) -/

/-- Settles O32: the answer drops the `SEQ` that the request has started. -/
theorem resetResult : Obligations.ResetResult := by
  intro s
  show Host.Outcome.next (answer .ok (setLState .poweredOff
    (resetBody (setLState .resetting (modifyShadow Shadow.invalidate (start tagReset s)))))) = _
  rw [resetBody_eq]
  rfl

/-! ### The end of a busy-wait (R263, R265, R266) -/

theorem afterWait_init (s : State) : afterWait tagInit s = initConfigure s := rfl

theorem afterWait_refresh (s : State) : afterWait tagRefresh s = { s with lstate := .idle }.answeredOk := rfl

theorem afterWait_busyWait (s : State) : afterWait tagBusyWait s = s.answeredOk := rfl

theorem initConfigure_of_ok (h : configureBody (setLState .configuring s) = (.ok, t)) :
    initConfigure s = { t with lstate := .idle }.answeredOk := by
  simp only [initConfigure, h]
  rfl

theorem initConfigure_of_fail (hst : st ≠ .ok) (h : configureBody (setLState .configuring s) = (st, t)) :
    initConfigure s = initFail st t := by
  simp only [initConfigure, h, if_neg hst]

theorem initConfigure_seq (s : State) : (initConfigure s).seq = none := by
  unfold initConfigure
  dsimp only
  split <;> exact answer_seq _ _

/-- `INIT` after its busy-wait, its transfers `Ok`. -/
theorem initConfigure_ok (h : transfersOk 14 s) :
    initConfigure s = { ({ s with lstate := .configuring }.didRead 0x2E 10).wroteAll (initFrames s.cfg) with
      lstate := .idle }.answeredOk :=
  initConfigure_of_ok (configureBody_ok (s := setLState .configuring s) h)

/-! ### One poll -/

theorem transfersOk_polledReady (h : transfersOk n s) : transfersOk n s.polledReady := h

/-- `SEQ` after `n` polls that read asserted, each with its delay (R25). -/
theorem polledBusy_seq (hs : s.seq = some q) (n : Nat) : (s.polledBusy n).seq = some (q.after (2 * n)) :=
  congrArg (Option.map (Seq.after (2 * n))) hs

/-- Settles O35: one turn of the busy-wait, from a request that has just started. -/
theorem busyWaitResult : Obligations.BusyWaitResult := fun s =>
  ⟨execBusyWait_ready, fun hbusy =>
    ⟨congrArg Host.Outcome.next (waitTurn_busy (s := start tagBusyWait s) hbusy tagBusyWait), rfl⟩⟩

/-! ### `INIT` up to its busy-wait (R263) -/

/-- The state in which `INIT` first polls: after the pulse and the frame of the software reset. -/
def State.initReset (s : State) : State := { (start tagInit s).pulsed with lstate := .awaitingReady }.wrote 0x12 []

theorem initStart_ok (h : transfersOk 1 s) : initStart s = (.ok, s.initReset) := by
  unfold initStart
  rw [resetBody_eq]
  exact frameW_ok (d := []) (s := { (start tagInit s).pulsed with lstate := .awaitingReady }) h

theorem exec_init_ok (h : transfersOk 1 s) : exec .init s = .next (waitTurn tagInit s.initReset) := by
  show Host.Outcome.next (if (initStart s).1 = .ok then waitTurn tagInit (initStart s).2
    else initFail (initStart s).1 (initStart s).2) = _
  rw [initStart_ok h, if_pos rfl]

theorem exec_init_ready (h : transfersOk 1 s) (hready : busyLevel s.initReset = false) :
    exec .init s = .next (initConfigure s.initReset.polledReady) := by
  rw [exec_init_ok h, waitTurn_ready hready, afterWait_init]

theorem exec_init_busy (h : transfersOk 1 s) (hbusy : busyLevel s.initReset = true) :
    exec .init s = .next (s.initReset.polledBusy 1) := by
  rw [exec_init_ok h, waitTurn_busy hbusy]

/-- The software reset makes one transfer. -/
theorem transfersOk_initReset (h : transfersOk (1 + n) s) : transfersOk n s.initReset :=
  transfersOk_after (m := 1) h rfl rfl

/-- The pulse makes four events, the frame of the software reset five, two more with the activity line. -/
theorem initReset_seq (s : State) :
    s.initReset.seq = some { tag := tagInit, index := if s.cfg.hasAct then 11 else 9 } := by
  cases hact : s.cfg.hasAct <;>
    simp [State.initReset, State.pulsed, State.wrote, start, writeEvents, actEvents, hact, Seq.after]

/-- Settles O33: `INIT` comes to its first poll in `State.initReset`, and the poll decides. -/
theorem initResult : Obligations.InitResult := by
  intro s
  refine ⟨fun hok hready => ?_, fun hok hbusy => ⟨exec_init_busy hok hbusy, ?_, rfl, rfl⟩⟩
  · have hconf : transfersOk 14 s.initReset.polledReady :=
      transfersOk_polledReady (transfersOk_initReset (n := 14) hok)
    exact (exec_init_ready (transfersOk_mono (by decide) hok) hready).trans
      (congrArg Host.Outcome.next (initConfigure_ok hconf))
  · refine (polledBusy_seq (initReset_seq s) 1).trans ?_
    cases s.cfg.hasAct <;> rfl

/-! ### `REFRESH` up to its busy-wait (R265) -/

/-- `REFRESH` behind its gate, before its first frame. -/
def State.refreshStarted (s : State) : State := { start tagRefresh s with lstate := .updating }

theorem exec_refresh_idle (hidle : s.lstate = .idle) :
    exec .refresh s = .next (
      if (refreshBody s.refreshStarted).1 = .ok then waitTurn tagRefresh (refreshBody s.refreshStarted).2
      else answer (refreshBody s.refreshStarted).1 (setLState .idle (refreshBody s.refreshStarted).2)) :=
  congrArg Host.Outcome.next (gated_idle hidle)

theorem exec_refresh_not_idle (hl : s.lstate ≠ .idle) : exec .refresh s = .next (s.answeredFail .sequenceError) :=
  congrArg Host.Outcome.next (gated_not_idle hl)

theorem exec_refresh_ok (hidle : s.lstate = .idle) (h : transfersOk 5 s) :
    exec .refresh s = .next (waitTurn tagRefresh (s.refreshStarted.wroteAll refreshFrames)) := by
  rw [exec_refresh_idle hidle, refreshBody_ok (s := s.refreshStarted) h, if_pos rfl]

theorem exec_refresh_ready (hidle : s.lstate = .idle) (h : transfersOk 5 s)
    (hready : busyLevel (s.refreshStarted.wroteAll refreshFrames) = false) :
    exec .refresh s =
      .next { (s.refreshStarted.wroteAll refreshFrames).polledReady with lstate := .idle }.answeredOk := by
  rw [exec_refresh_ok hidle h, waitTurn_ready hready, afterWait_refresh]

theorem exec_refresh_busy (hidle : s.lstate = .idle) (h : transfersOk 5 s)
    (hbusy : busyLevel (s.refreshStarted.wroteAll refreshFrames) = true) :
    exec .refresh s = .next ((s.refreshStarted.wroteAll refreshFrames).polledBusy 1) := by
  rw [exec_refresh_ok hidle h, waitTurn_busy hbusy]

/-- The frames of `REFRESH` make 17 events, two more each with the activity line. -/
theorem eventsOfAll_refreshFrames (c : Cfg) : eventsOfAll c refreshFrames = if c.hasAct then 23 else 17 := by
  cases hact : c.hasAct <;> simp [eventsOfAll, refreshFrames, writeEvents, actEvents, hact]

theorem wroteAll_seq (fs : List Frame) (s : State) :
    (s.wroteAll fs).seq = s.seq.map (Seq.after (eventsOfAll s.cfg fs)) :=
  congrArg State.seq (wroteAll_withSeq fs s.seq s)

/-- Settles O34: `REFRESH` comes to its first poll after its three frames, and the poll decides. -/
theorem refreshResult : Obligations.RefreshResult := by
  intro s hidle hok
  refine ⟨exec_refresh_ready hidle hok, fun hbusy =>
    ⟨exec_refresh_busy hidle hok hbusy, ?_, wroteAll_lstate _ _, wroteAll_sh _ _⟩⟩
  refine (polledBusy_seq (wroteAll_seq _ _) 1).trans ?_
  rw [eventsOfAll_refreshFrames]
  cases hact : s.cfg.hasAct <;> simp [hact, Seq.after, tagRefresh]

/-! ### Polls that read asserted, one step each (R266, R267) -/

@[simp] theorem polledBusy_zero (s : State) : s.polledBusy 0 = s := by
  simp [State.polledBusy, pollEvents, stamp]

theorem polledBusy_polledBusy_one (n : Nat) (s : State) : (s.polledBusy 1).polledBusy n = s.polledBusy (n + 1) := by
  have htrace : (s.polledBusy 1).trace ++ stamp s.lstate (pollEvents n) =
      s.trace ++ stamp s.lstate (pollEvents (n + 1)) := append_stamp_stamp _ _ _ _
  have hseq : (s.polledBusy 1).seq.map (Seq.after (2 * n)) = s.seq.map (Seq.after (2 * (n + 1))) :=
    (Seq.map_after 2 (2 * n) _).trans (by rw [Nat.mul_succ, Nat.add_comm])
  have hpos : s.env.busyPos + 1 + n = s.env.busyPos + (n + 1) := by omega
  simp only [State.polledBusy] at htrace hseq ⊢
  rw [htrace, hseq, hpos]

theorem busyFor_mono (hmn : m ≤ n) (h : busyFor n s) : busyFor m s :=
  ⟨h.1, fun i hi => h.2 i (lt_of_lt_of_le hi hmn)⟩

theorem busyFor_polledBusy_one (h : busyFor (n + 1) s) : busyFor n (s.polledBusy 1) := by
  obtain ⟨hpeer, hline⟩ := h
  refine ⟨hpeer, fun i hi => ?_⟩
  have hi' := hline (i + 1) (Nat.succ_lt_succ hi)
  rwa [← Nat.add_assoc, Nat.add_right_comm] at hi'

theorem run_succ_of_step (h : step s = .next t) (n : Nat) :
    Host.Core.run Sys2Proof.core (n + 1) s = Host.Core.run Sys2Proof.core n t := by
  have hcore : Sys2Proof.core.step s = .next t := h
  simp only [Host.Core.run, hcore]

/-- The first `n` of `n + k` steps of a waiting request are the `n` polls that read asserted. -/
theorem run_polledBusy (hc : s.cfg.wf = true) (hs : s.seq = some q)
    (hq : q.tag = tagInit ∨ q.tag = tagRefresh ∨ q.tag = tagBusyWait) (h : busyFor n s) (k : Nat) :
    Host.Core.run Sys2Proof.core (n + k) s = Host.Core.run Sys2Proof.core k (s.polledBusy n) := by
  induction n generalizing s q with
  | zero => rw [polledBusy_zero, Nat.zero_add]
  | succ n ih =>
    have hstep : step s = .next (s.polledBusy 1) := by
      rw [step_waiting hc hs hq, waitTurn_busy (busyLevel_busy (busyFor_mono (by omega) h))]
    calc Host.Core.run Sys2Proof.core (n + 1 + k) s
        = Host.Core.run Sys2Proof.core (n + k + 1) s := by rw [Nat.add_right_comm]
      _ = Host.Core.run Sys2Proof.core (n + k) (s.polledBusy 1) := run_succ_of_step hstep (n + k)
      _ = Host.Core.run Sys2Proof.core k ((s.polledBusy 1).polledBusy n) :=
        ih (q := q.after 2) hc (polledBusy_seq hs 1) hq (busyFor_polledBusy_one h)
      _ = Host.Core.run Sys2Proof.core k (s.polledBusy (n + 1)) := by rw [polledBusy_polledBusy_one]

/-- Settles O36: all the steps are polls that read asserted. -/
theorem busyLineHangs : Obligations.BusyLineHangs := fun _ _ _ hc hs hq h => run_polledBusy hc hs hq h 0

/-- The step after `n` asserted polls makes the first deasserted one, and the request goes on to its end. -/
theorem run_afterWait (hc : s.cfg.wf = true) (hs : s.seq = some q)
    (hq : q.tag = tagInit ∨ q.tag = tagRefresh ∨ q.tag = tagBusyWait) (h : busyThenReady n s) :
    Host.Core.run Sys2Proof.core (n + 1) s = .next (afterWait q.tag (s.polledBusy n).polledReady) := by
  obtain ⟨hbusy, hready⟩ := h
  have hstep : step (s.polledBusy n) = .next (afterWait q.tag (s.polledBusy n).polledReady) := by
    rw [step_waiting (s := s.polledBusy n) (q := q.after (2 * n)) hc (polledBusy_seq hs n) hq,
      waitTurn_ready (busyLevel_ready hready)]
    rfl
  rw [run_polledBusy hc hs hq hbusy 1, run_succ_of_step hstep 0]
  rfl

/-! ### The transfers of the configuration (R263, R333) -/

theorem frameW_xferPos_of_ok {op : Byte} {d : List Byte} (hok : (frameW op d s).1 = .ok) :
    (frameW op d s).2.env.xferPos = s.env.xferPos + transfersOf d := by
  rcases frameW_cases op d s with ⟨-, e⟩ | ⟨code, -, e⟩ | ⟨code, -, -, -, e⟩ <;> rw [e] at hok ⊢
  · rfl
  all_goals cases hok

theorem frameR_xferPos_of_ok {op : Byte} (hn : 0 < n) (hok : (frameR op n s).1.1 = .ok) :
    (frameR op n s).2.env.xferPos = s.env.xferPos + 2 := by
  rcases frameR_cases op s hn with ⟨-, e⟩ | ⟨code, -, e⟩ | ⟨code, -, -, e⟩ <;> rw [e] at hok ⊢
  · rfl
  all_goals cases hok

/-- Two steps that end `Ok` have made the transfers of both. -/
theorem andThen_xferPos_of_ok (h1 : r.1 = .ok → r.2.env.xferPos = s.env.xferPos + m)
    (h2 : ∀ u, (k u).1 = .ok → (k u).2.env.xferPos = u.env.xferPos + n) (hok : (andThen r k).1 = .ok) :
    (andThen r k).2.env.xferPos = s.env.xferPos + (m + n) := by
  obtain ⟨hfirst, hran⟩ := andThen_ok_inv hok
  rw [hran] at hok ⊢
  rw [h2 _ hok, h1 hfirst, Nat.add_assoc]

theorem configureBody_xferPos_of_ok (hok : (configureBody s).1 = .ok) :
    (configureBody s).2.env.xferPos = s.env.xferPos + 14 := by
  refine andThen_xferPos_of_ok (m := 2) (n := 12) (frameR_xferPos_of_ok (by decide)) (fun u => ?_) hok
  refine andThen_xferPos_of_ok (m := 4) (n := 8)
    (andThen_xferPos_of_ok (m := 2) (n := 2) frameW_xferPos_of_ok fun _ => frameW_xferPos_of_ok) fun u => ?_
  refine andThen_xferPos_of_ok (m := 2) (n := 6) frameW_xferPos_of_ok fun u => ?_
  refine andThen_xferPos_of_ok (m := 2) (n := 4) frameW_xferPos_of_ok fun u => ?_
  exact andThen_xferPos_of_ok (m := 2) (n := 2) frameW_xferPos_of_ok fun _ => frameW_xferPos_of_ok

theorem configureBody_not_misaligned (s : State) : (configureBody s).1 ≠ .alignmentError := by
  refine andThen_status (frameR_status _ _ s) fun u => ?_
  refine andThen_status (andThen_status (frameW_status _ _ u) fun _ => frameW_status _ _ _) fun u => ?_
  refine andThen_status (frameW_status _ _ u) fun u => ?_
  refine andThen_status (frameW_status _ _ u) fun u => ?_
  exact andThen_status (frameW_status _ _ u) fun _ => frameW_status _ _ _

/-- Frames either all ended `Ok` or stopped at a transport's failure, where no operand can be misaligned. -/
theorem Ran.ok_or_failed (hran : Ran s r) (halign : r.1 ≠ .alignmentError) :
    r.1 = .ok ∨ ∃ code, r.1 = .transportError code := by
  cases hst : r.1 with
  | ok => exact .inl rfl
  | alignmentError => exact absurd hst halign
  | transportError code => exact .inr ⟨code, rfl⟩
  | sequenceError => exact absurd hst hran.noSeq

/-- Frames of `n` transfers end at the first of them that fails, with its code and no later transfer (R333). -/
theorem Ran.stops_at_failure (hran : Ran s r) (halign : r.1 ≠ .alignmentError)
    (hcount : r.1 = .ok → r.2.env.xferPos = s.env.xferPos + n) (hj : j < n) (hok : transfersOk j s)
    (hfail : s.env.transfer (s.env.xferPos + j) = .fail code) :
    r.1 = .transportError code ∧ r.2.env.xferPos = s.env.xferPos + j + 1 := by
  rcases hran.ok_or_failed halign with hst | ⟨c, hst⟩
  · have hall := hran.ok hst (s.env.xferPos + j) (by omega) (by rw [hcount hst]; omega)
    cases hall.symm.trans hfail
  · obtain ⟨i, hi, hpos, hfailed, hbefore⟩ := hran.failed c hst
    obtain hlt | rfl | hgt := Nat.lt_trichotomy i (s.env.xferPos + j)
    · have hearly := hok (i - s.env.xferPos) (by omega)
      rw [Nat.add_sub_cancel' hi] at hearly
      cases hearly.symm.trans hfailed
    · obtain rfl := TransportStatus.fail.inj (hfailed.symm.trans hfail)
      exact ⟨hst, hpos⟩
    · cases (hbefore _ (by omega) hgt).symm.trans hfail

/-- `INIT` after its busy-wait, where one of its 14 transfers fails. -/
theorem initConfigure_stops_at_failure (hj : j < 14) (hok : transfersOk j s)
    (hfail : s.env.transfer (s.env.xferPos + j) = .fail code) :
    (initConfigure s).lstate = .poweredOff ∧ (initConfigure s).rsp.status = .transportError code ∧
      (initConfigure s).env.xferPos = s.env.xferPos + j + 1 := by
  obtain ⟨hst, hpos⟩ := (Ran.configureBody (setLState .configuring s)).stops_at_failure
    (configureBody_not_misaligned _) configureBody_xferPos_of_ok hj hok hfail
  have hne : (configureBody (setLState .configuring s)).1 ≠ .ok := by rw [hst]; exact Status.noConfusion
  rw [initConfigure_of_fail hne rfl, initFail, hst]
  refine ⟨answer_lstate _ _, answer_status _ _, ?_⟩
  rw [answer_env]
  exact hpos

/-- Settles O37: the step of the first deasserted poll runs the request on from the end of its busy-wait. -/
theorem waitEnds : Obligations.WaitEnds := by
  intro n s q hc hs hwait
  refine ⟨fun htag => ?busyWait, fun htag => ?refresh, fun htag hok => ?initOk,
    fun htag j code hj hok hfail => ?initFails⟩
  case busyWait =>
    rw [run_afterWait hc hs (.inr (.inr htag)) hwait, htag, afterWait_busyWait]
  case refresh =>
    rw [run_afterWait hc hs (.inr (.inl htag)) hwait, htag, afterWait_refresh]
  case initOk =>
    have hconf : transfersOk 14 (s.polledBusy n).polledReady := hok
    rw [run_afterWait hc hs (.inl htag) hwait, htag, afterWait_init, initConfigure_ok hconf]
    rfl
  case initFails =>
    obtain ⟨hlstate, hstatus, hpos⟩ :=
      initConfigure_stops_at_failure (s := (s.polledBusy n).polledReady) hj hok hfail
    refine ⟨_, run_afterWait hc hs (.inl htag) hwait, ?_⟩
    rw [htag, afterWait_init]
    exact ⟨hlstate, hstatus, initConfigure_seq _, hpos, initConfigure_sh _⟩

/-! ### The user ID's read fails (R264) -/

/-- The configuration stops at the `Rx` of its first frame. -/
theorem configureBody_userIdFail (h0 : s.env.transfer s.env.xferPos = .ok)
    (h1 : s.env.transfer (s.env.xferPos + 1) = .fail code) :
    configureBody s = (.transportError code, s.readFailed 0x2E 10 code) := by
  have hread : userIdBody s = ((.transportError code, []), s.readFailed 0x2E 10 code) :=
    frameR_rxFail (by decide) h0 h1
  simp only [configureBody, hread, andThen_transportError]

/-- Settles O40: the line is ready at the first poll, and the read that follows it is the failing frame. -/
theorem initUserIdFails : Obligations.InitUserIdFails := by
  intro s t code hready h0 h1 h2 ht
  have hpoll : busyLevel s.initReset = false := busyLevel_ready hready
  have hfail := configureBody_userIdFail (s := setLState .configuring s.initReset.polledReady) h1 h2
  have hok : transfersOk 1 s := fun i hi => by
    obtain rfl : i = 0 := by omega
    exact h0
  rw [exec_init_ready hok hpoll, initConfigure_of_fail Status.noConfusion hfail] at ht
  obtain rfl := Host.Outcome.next.inj ht
  refine ⟨rfl, rfl, rfl, ?_⟩
  rw [stamp_append, ← List.append_assoc]
  rfl

/-! ### Where `LSTATE` goes (R272) -/

/-- After its busy-wait `INIT` ends `Ok` in `Idle` or with a transport's failure in `PoweredOff`. -/
theorem initConfigure_ends (s : State) :
    ((initConfigure s).rsp.status = .ok ∧ (initConfigure s).lstate = .idle) ∨
      ((∃ code, (initConfigure s).rsp.status = .transportError code) ∧ (initConfigure s).lstate = .poweredOff) := by
  have hran := Ran.configureBody (setLState .configuring s)
  rcases hran.ok_or_failed (configureBody_not_misaligned _) with hst | ⟨code, hst⟩
  · rw [initConfigure_of_ok (Prod.ext hst rfl)]
    exact .inl ⟨rfl, rfl⟩
  · rw [initConfigure_of_fail Status.noConfusion (Prod.ext hst rfl)]
    exact .inr ⟨⟨code, answer_status _ _⟩, answer_lstate _ _⟩

theorem afterWait_seq (tag : Byte) (s : State) : (afterWait tag s).seq = none := by
  unfold afterWait
  split_ifs
  · exact initConfigure_seq s
  all_goals exact answer_seq _ _

/-- How a request with this tag, come to its busy-wait in `l`, has ended. -/
def WaitEnded (tag : Byte) (l : LState) (t : State) : Prop :=
  t.seq = none ∧
    (tag = tagInit → (t.rsp.status = .ok ∧ t.lstate = .idle) ∨
      ((∃ code, t.rsp.status = .transportError code) ∧ t.lstate = .poweredOff)) ∧
    (tag = tagRefresh → t.rsp.status = .ok ∧ t.lstate = .idle) ∧
    (tag = tagBusyWait → t.rsp.status = .ok ∧ t.lstate = l)

theorem afterWait_ended (tag : Byte) (s : State) : WaitEnded tag s.lstate (afterWait tag s) := by
  refine ⟨afterWait_seq tag s, ?_, ?_, ?_⟩ <;> rintro rfl
  · exact initConfigure_ends s
  · exact ⟨rfl, rfl⟩
  · exact ⟨rfl, rfl⟩

/-- A turn of the busy-wait leaves the request at its next poll, `LSTATE` as it was, or ends it. -/
theorem waitTurn_stays_or_ends (hs : s.seq = some q) (tag : Byte) :
    ((waitTurn tag s).seq = some (q.after 2) ∧ (waitTurn tag s).lstate = s.lstate) ∨
      WaitEnded tag s.lstate (waitTurn tag s) := by
  cases hb : busyLevel s with
  | true =>
    rw [waitTurn_busy hb]
    exact .inl ⟨polledBusy_seq hs 1, rfl⟩
  | false =>
    rw [waitTurn_ready hb]
    exact .inr (afterWait_ended tag s.polledReady)

/-- An instruction that does not write `LSTATE` leaves it (R35). -/
theorem exec_keeps_lstate {i : Instr} (hi : writesLState i = false) (h : exec i s = .next t) : t.lstate = s.lstate := by
  cases hl : isLifecycle i with
  | false =>
    rcases exec_cases hl h with ⟨-, -, rfl⟩ | ⟨r, hran, -, -, rfl⟩
    · rfl
    · exact (answer_lstate _ _).trans hran.lstate
  | true =>
    rcases isLifecycle_cases hl with rfl | rfl | rfl | rfl
    case inr.inr.inr =>
      obtain rfl := Host.Outcome.next.inj h
      rcases waitTurn_stays_or_ends (start_seq s tagBusyWait) tagBusyWait with ⟨-, hkept⟩ | ⟨-, -, -, hended⟩
      · exact hkept
      · exact (hended rfl).2
    all_goals cases hi

theorem initStart_ok_or_failed (s : State) : (initStart s).1 = .ok ∨ ∃ code, (initStart s).1 = .transportError code :=
  (initStart_ran s).ok_or_failed (frameW_status _ _ _)

/-- `INIT` ends `Ok` in `Idle`, with a transport's failure in `PoweredOff`, or waits in `AwaitingReady`. -/
theorem exec_init_lstate (h : exec .init s = .next t) :
    (t.seq = none ∧ t.rsp.status = .ok ∧ t.lstate = .idle) ∨
      (t.seq = none ∧ (∃ code, t.rsp.status = .transportError code) ∧ t.lstate = .poweredOff) ∨
      ((∃ q, t.seq = some q ∧ q.tag = tagInit) ∧ t.lstate = .awaitingReady) := by
  obtain rfl := Host.Outcome.next.inj h
  obtain ⟨n, hn⟩ := initStart_seq s
  rcases initStart_ok_or_failed s with hst | ⟨code, hst⟩
  · rw [if_pos hst]
    rcases waitTurn_stays_or_ends hn tagInit with ⟨hseq, hl⟩ | ⟨hseq, hended, -, -⟩
    · exact .inr (.inr ⟨⟨_, hseq, rfl⟩, hl.trans (initStart_ran s).lstate⟩)
    · exact (hended rfl).imp (⟨hseq, ·⟩) fun hfailed => .inl ⟨hseq, hfailed⟩
  · rw [hst, if_neg Status.noConfusion]
    exact .inr (.inl ⟨answer_seq _ _, ⟨code, answer_status _ _⟩, answer_lstate _ _⟩)

/-- `REFRESH` in `Idle` ends there, whatever its status, or waits in `Updating`. -/
theorem exec_refresh_lstate (hidle : s.lstate = .idle) (h : exec .refresh s = .next t) :
    (t.seq = none ∧ t.lstate = .idle) ∨ ((∃ q, t.seq = some q ∧ q.tag = tagRefresh) ∧ t.lstate = .updating) := by
  rw [exec_refresh_idle hidle] at h
  obtain rfl := Host.Outcome.next.inj h
  have hran := Ran.refreshBody s.refreshStarted
  obtain ⟨n, hn⟩ := refreshBody_seq s.refreshStarted
  split
  · rcases waitTurn_stays_or_ends hn tagRefresh with ⟨hseq, hl⟩ | ⟨hseq, -, hended, -⟩
    · exact .inr ⟨⟨_, hseq, rfl⟩, hl.trans hran.lstate⟩
    · exact .inl ⟨hseq, (hended rfl).2⟩
  · exact .inl ⟨answer_seq _ _, answer_lstate _ _⟩

/-- A resumed request makes one turn of its busy-wait. -/
theorem resumeWait_next (h : resumeWait q s = .next t) : t = waitTurn q.tag s := by
  unfold resumeWait at h
  split at h
  · exact (Host.Outcome.next.inj h).symm
  · cases h

/-- Settles O38: the three requests that write `LSTATE` one by one, the others at once, and the turn of a waiting one. -/
theorem lifecycleTransitions : Obligations.LifecycleTransitions := by
  constructor
  · intro i s t h
    refine ⟨fun hi => exec_keeps_lstate hi h, ?reset, ?init, ?refreshIdle, ?refreshRefused⟩ <;> rintro rfl
    case reset =>
      rw [resetResult] at h
      obtain rfl := Host.Outcome.next.inj h
      exact ⟨rfl, rfl⟩
    case init => exact exec_init_lstate h
    case refreshIdle => exact fun hidle => exec_refresh_lstate hidle h
    case refreshRefused =>
      intro hl
      rw [exec_refresh_not_idle hl] at h
      obtain rfl := Host.Outcome.next.inj h
      exact ⟨rfl, rfl⟩
  · intro q s t hs h
    obtain rfl := resumeWait_next h
    exact waitTurn_stays_or_ends hs q.tag

end Sys2Proof.Machine

/-! The text renderer (O41 to O45, O48): the cursor table and the signs it keeps, the bytes of a cell, and the character
loop, which draws the cells of `drawnCells` one after another or stops misaligned at the first of them. -/

namespace Sys2Proof.Machine

variable {s : State} {f : Font} {c tag : Byte} {left : W16} {down : Int} {cur next : Int × Int} {str : List Byte}
  {origin : Int × Int → W16 × W16} {ds : List (Byte × (Int × Int))}

/-! ### The cursor (R294, R295) -/

theorem cursorMove_of_control (h : controlMove down c cur = some next) : cursorMove down c cur = next := by
  rw [cursorMove, h, Option.getD_some]

theorem cursorMove_of_printable (h : controlMove down c cur = none) : cursorMove down c cur = (cur.1 + 1, cur.2) := by
  rw [cursorMove, h, Option.getD_none]

/-- A byte that is none of the four control characters is printable. -/
theorem controlMove_eq_none (hbs : c ≠ 0x08) (htab : c ≠ 0x09) (hlf : c ≠ 0x0A) (hcr : c ≠ 0x0D) :
    controlMove down c cur = none := by
  simp only [controlMove, if_neg hbs, if_neg htab, if_neg hlf, if_neg hcr]

theorem cursorMove_backspace (down : Int) (cur : Int × Int) :
    cursorMove down 0x08 cur = (max (cur.1 - 1) 0, cur.2) := rfl

theorem cursorMove_tab (down : Int) (cur : Int × Int) : cursorMove down 0x09 cur = ((cur.1 / 4 + 1) * 4, cur.2) := rfl

theorem cursorMove_lineFeed (down : Int) (cur : Int × Int) : cursorMove down 0x0A cur = (0, cur.2 + down) := rfl

theorem cursorMove_carriageReturn (down : Int) (cur : Int × Int) : cursorMove down 0x0D cur = (0, cur.2) := rfl

theorem cursorMove_other (hbs : c ≠ 0x08) (htab : c ≠ 0x09) (hlf : c ≠ 0x0A) (hcr : c ≠ 0x0D) :
    cursorMove down c cur = (cur.1 + 1, cur.2) :=
  cursorMove_of_printable (controlMove_eq_none hbs htab hlf hcr)

/-- Settles O41: one equation for each row of the table. -/
theorem cursorMoves : Obligations.CursorMoves := fun down col row =>
  ⟨cursorMove_backspace down (col, row), cursorMove_tab down (col, row), cursorMove_lineFeed down (col, row),
    cursorMove_carriageReturn down (col, row), fun _ hbs htab hlf hcr => cursorMove_other hbs htab hlf hcr⟩

/-! ### The signs of the cursor (R295) -/

/-- Everything one character can do to the cursor. -/
theorem cursorMove_cases (down : Int) (c : Byte) (cur : Int × Int) :
    cursorMove down c cur = (max (cur.1 - 1) 0, cur.2) ∨ cursorMove down c cur = ((cur.1 / 4 + 1) * 4, cur.2) ∨
      cursorMove down c cur = (0, cur.2 + down) ∨ cursorMove down c cur = (0, cur.2) ∨
      cursorMove down c cur = (cur.1 + 1, cur.2) := by
  by_cases hbs : c = 0x08
  · exact .inl (hbs ▸ cursorMove_backspace down cur)
  by_cases htab : c = 0x09
  · exact .inr (.inl (htab ▸ cursorMove_tab down cur))
  by_cases hlf : c = 0x0A
  · exact .inr (.inr (.inl (hlf ▸ cursorMove_lineFeed down cur)))
  by_cases hcr : c = 0x0D
  · exact .inr (.inr (.inr (.inl (hcr ▸ cursorMove_carriageReturn down cur))))
  · exact .inr (.inr (.inr (.inr (cursorMove_other hbs htab hlf hcr))))

/-- No character takes the column below 0: a backspace stops there. -/
theorem cursorMove_col_nonneg (h : 0 ≤ cur.1) (down : Int) (c : Byte) : 0 ≤ (cursorMove down c cur).1 := by
  rcases cursorMove_cases down c cur with e | e | e | e | e <;> rw [e] <;> dsimp only <;> omega

/-- Only a line-feed changes the row. -/
theorem cursorMove_row (down : Int) (c : Byte) (cur : Int × Int) :
    (cursorMove down c cur).2 = cur.2 ∨ (cursorMove down c cur).2 = cur.2 + down := by
  rcases cursorMove_cases down c cur with e | e | e | e | e <;> rw [e]
  case inr.inr.inl => exact .inr rfl
  all_goals exact .inl rfl

/-- What every character keeps holds after every string. -/
theorem cursorAfter_keeps {P : Int × Int → Prop} (hstep : ∀ c cur, P cur → P (cursorMove down c cur))
    (str : List Byte) (h : P cur) : P (cursorAfter down str cur) := by
  induction str generalizing cur with
  | nil => exact h
  | cons c cs ih => exact ih (hstep c cur h)

theorem cursorAfter_col_nonneg (down : Int) (str : List Byte) (h : 0 ≤ cur.1) : 0 ≤ (cursorAfter down str cur).1 :=
  cursorAfter_keeps (P := fun cur => 0 ≤ cur.1) (fun c _ h => cursorMove_col_nonneg h down c) str h

theorem cursorAfter_row_nonneg (hdown : 0 ≤ down) (str : List Byte) (h : 0 ≤ cur.2) :
    0 ≤ (cursorAfter down str cur).2 := by
  refine cursorAfter_keeps (P := fun cur => 0 ≤ cur.2) (fun c cur h => ?_) str h
  rcases cursorMove_row down c cur with e | e <;> omega

theorem cursorAfter_row_nonpos (hdown : down ≤ 0) (str : List Byte) (h : cur.2 ≤ 0) :
    (cursorAfter down str cur).2 ≤ 0 := by
  refine cursorAfter_keeps (P := fun cur => cur.2 ≤ 0) (fun c cur h => ?_) str h
  rcases cursorMove_row down c cur with e | e <;> omega

/-- Settles O42: each sign is kept by every character, so by every string from the cursor (0,0). -/
theorem cursorSigns : Obligations.CursorSigns := fun str =>
  ⟨cursorAfter_col_nonneg 1 str le_rfl, cursorAfter_row_nonneg Int.one_nonneg str le_rfl,
    cursorAfter_col_nonneg (-1) str le_rfl, cursorAfter_row_nonpos (by decide) str le_rfl⟩

/-! ### The bytes of a cell (R293, R296) -/

/-- A good glyph table has a glyph of `G` bytes for every character code. -/
theorem glyph_length (hf : fontOk f = true) (c : Byte) : (f.table.getD c.toNat []).length = glyphBytes f := by
  obtain ⟨hlen, hall⟩ := (fontOk_iff f).1 hf
  have hc : c.toNat < f.table.length := hlen ▸ c.isLt
  rw [List.getD_eq_getElem _ _ hc]
  exact hall _ (List.getElem_mem hc)

theorem xor_ff_eq_sub (g : Byte) : g ^^^ 0xFF = 255 - g :=
  (BitVec.xor_allOnes (x := g)).trans (BitVec.allOnes_sub_eq_not g).symm

/-- Settles O45: complementing the bytes one by one keeps their number and their places. -/
theorem glyphInverted : Obligations.GlyphInverted := by
  intro f c hf
  refine ⟨?_, fun j => ?_⟩
  · rw [invertedGlyph, List.length_map, glyph_length hf, glyphBytes]
  · simp only [invertedGlyph, List.getElem?_map, xor_ff_eq_sub]

/-! ### The origin of a cell (R298) -/

theorem trunc16_toNat (a : Int) : ((trunc16 a).toNat : Int) = a % 65536 := by
  rw [trunc16, BitVec.toNat_ofInt]
  omega

/-- Reduction modulo 65536 and steps of an aligned glyph width keep the alignment of the first cell. -/
theorem cellColumn_mod (hg : f.gw % 8 = 0) (left : W16) (k : Int) :
    (trunc16 (left.toNat + f.gw * k)).toNat % 8 = left.toNat % 8 := by
  have hmod := trunc16_mod (left.toNat + f.gw * k)
  have hstep : ((f.gw : Int) * k) % 8 = 0 := Int.emod_eq_zero_of_dvd (Dvd.dvd.mul_right (by omega) k)
  omega

/-- With an aligned glyph width every cell's column is aligned as `left` is. -/
def AlignedAs (left : W16) (f : Font) (origin : Int × Int → W16 × W16) : Prop :=
  f.gw % 8 = 0 → ∀ cur, (origin cur).1.toNat % 8 = left.toNat % 8

theorem alignedAs_originH (left top : W16) (f : Font) : AlignedAs left f (originH left top f) :=
  fun hg cur => cellColumn_mod hg left cur.1

theorem alignedAs_originV (left top : W16) (f : Font) : AlignedAs left f (originV left top f) :=
  fun hg cur => cellColumn_mod hg left cur.2

theorem AlignedAs.misaligned (ho : AlignedAs left f origin) (h : left.toNat % 8 ≠ 0 ∨ f.gw % 8 ≠ 0)
    (cur : Int × Int) : (origin cur).1.toNat % 8 ≠ 0 ∨ f.gw % 8 ≠ 0 := by
  by_cases hg : f.gw % 8 = 0
  · rw [ho hg cur]; exact h
  · exact .inr hg

/-! ### The character loop by characters (R291, R292, R294) -/

theorem drawnCells_control (h : controlMove down c cur = some next) :
    drawnCells down (c :: str) cur = drawnCells down str next := by
  rw [drawnCells, cursorMove_of_control h, h]; rfl

theorem drawnCells_printable (h : controlMove down c cur = none) :
    drawnCells down (c :: str) cur = (c, cur) :: drawnCells down str (cur.1 + 1, cur.2) := by
  rw [drawnCells, cursorMove_of_printable h, h]; rfl

theorem cursorAfter_control (h : controlMove down c cur = some next) :
    cursorAfter down (c :: str) cur = cursorAfter down str next := by
  rw [cursorAfter, cursorMove_of_control h]

theorem cursorAfter_printable (h : controlMove down c cur = none) :
    cursorAfter down (c :: str) cur = cursorAfter down str (cur.1 + 1, cur.2) := by
  rw [cursorAfter, cursorMove_of_printable h]

/-- A control character makes no frame. -/
theorem printLoop_control (h : controlMove down c cur = some next) (s : State) :
    printLoop down origin f (c :: str) cur s = printLoop down origin f str next s := by
  simp only [printLoop, h]

/-- A printable character whose cell is drawn. -/
theorem printLoop_printable {t : State} (h : controlMove down c cur = none)
    (hb : blit (origin cur).1 (origin cur).2 f (invertedGlyph f c) s = (.ok, t)) :
    printLoop down origin f (c :: str) cur s = printLoop down origin f str (cur.1 + 1, cur.2) t := by
  simp only [printLoop, h, hb, if_true]

/-- The loop stops at a printable character whose cell is not drawn. -/
theorem printLoop_stops {t : State} {st : Status} (h : controlMove down c cur = none) (hst : st ≠ .ok)
    (hb : blit (origin cur).1 (origin cur).2 f (invertedGlyph f c) s = (st, t)) :
    printLoop down origin f (c :: str) cur s = ((st, cur), t) := by
  simp only [printLoop, h, hb, if_neg hst]

/-! ### The cells drawn (R297) -/

/-- The state after the cells `ds` are drawn whole, the request still running. -/
def State.drew (origin : Int × Int → W16 × W16) (f : Font) (ds : List (Byte × (Int × Int))) (s : State) : State :=
  { s.wroteAll (textFrames origin f ds) with sh := textShadow origin f ds s.sh }

theorem textFrames_cons (d : Byte × (Int × Int)) (ds : List (Byte × (Int × Int))) :
    textFrames origin f (d :: ds) = textFrames origin f [d] ++ textFrames origin f ds :=
  List.flatMap_append (xs := [d])

/-- The frames of one cell look at no shadow, so the shadows can be written once, at the end. -/
theorem drew_cons (d : Byte × (Int × Int)) (ds : List (Byte × (Int × Int))) (s : State) :
    (s.drew origin f [d]).drew origin f ds = s.drew origin f (d :: ds) := by
  simp only [State.drew, textFrames_cons d ds, wroteAll_append, wroteAll_withShadow]
  rfl

/-- The transfers of one cell: two for each range and counter frame, then those of its bytes. -/
theorem transfersOfAll_cell (d : Byte × (Int × Int)) :
    transfersOfAll (textFrames origin f [d]) = 4 + (4 + transfersOf (invertedGlyph f d.1)) := by
  have hcounter (x y : W16) : transfersOfAll (counterFrames x y) = 4 := rfl
  simp only [textFrames, List.flatMap_singleton, cellFrames, transfersOfAll_append, transfersOfAll_window, hcounter,
    transfersOfAll_cons, transfersOfAll_nil, add_zero, add_assoc]

theorem transfersOk_drew {n : Nat} (h : transfersOk (transfersOfAll (textFrames origin f ds) + n) s) :
    transfersOk n (s.drew origin f ds) :=
  (transfersOk_congr rfl rfl).2 (transfersOk_wroteAll h)

/-- One aligned cell with its transfers `Ok`. -/
theorem blit_drew (d : Byte × (Int × Int)) (hx : (origin d.2).1.toNat % 8 = 0) (hg : f.gw % 8 = 0)
    (h : transfersOk (transfersOfAll (textFrames origin f [d])) s) :
    blit (origin d.2).1 (origin d.2).2 f (invertedGlyph f d.1) s = (.ok, s.drew origin f [d]) := by
  rw [transfersOfAll_cell] at h
  rw [blit_ok hx hg h, State.drew, textFrames, List.flatMap_singleton]
  rfl

/-- With every cell aligned and every transfer `Ok` the loop draws the printable characters in order. -/
theorem printLoop_drew (halign : ∀ d ∈ drawnCells down str cur, (origin d.2).1.toNat % 8 = 0 ∧ f.gw % 8 = 0)
    (hok : transfersOk (transfersOfAll (textFrames origin f (drawnCells down str cur))) s) :
    printLoop down origin f str cur s =
      ((.ok, cursorAfter down str cur), s.drew origin f (drawnCells down str cur)) := by
  induction str generalizing cur s with
  | nil => rfl
  | cons c cs ih =>
    cases hm : controlMove down c cur with
    | some next =>
      rw [drawnCells_control hm] at halign hok ⊢
      rw [printLoop_control hm, cursorAfter_control hm, ih halign hok]
    | none =>
      rw [drawnCells_printable hm] at halign hok ⊢
      obtain ⟨⟨hx, hg⟩, hrest⟩ := List.forall_mem_cons.1 halign
      rw [textFrames_cons, transfersOfAll_append] at hok
      have hcell := blit_drew (c, cur) hx hg (transfersOk_mono (Nat.le_add_right _ _) hok)
      rw [printLoop_printable hm hcell, cursorAfter_printable hm, ih hrest (transfersOk_drew hok), drew_cons]

/-- A misaligned text request draws nothing: its loop stops at the first printable character. -/
theorem printLoop_misaligned (hmis : ∀ cur, (origin cur).1.toNat % 8 ≠ 0 ∨ f.gw % 8 ≠ 0)
    (hdraws : drawnCells down str cur ≠ []) :
    ∃ last, printLoop down origin f str cur s = ((.alignmentError, last), s) := by
  induction str generalizing cur with
  | nil => exact absurd rfl hdraws
  | cons c cs ih =>
    cases hm : controlMove down c cur with
    | some next =>
      rw [drawnCells_control hm] at hdraws
      rw [printLoop_control hm]
      exact ih hdraws
    | none => exact ⟨cur, printLoop_stops hm Status.noConfusion (blit_misaligned (hmis cur) _ _ s)⟩

/-! ### The text requests (R291, R292, R299) -/

/-- A text request that meets its contract runs in `Idle`. -/
theorem printRequest_idle (htext : s.cfg.hasText = true) (hfont : fontOk f = true) (hidle : s.lstate = .idle)
    (tag : Byte) (body : State → State) : printRequest tag f body s = .next (body (start tag s)) := by
  rw [printRequest, if_pos htext, if_pos hfont, gated_idle hidle]

/-- The answer drops `SEQ` and takes the final cursor. -/
theorem answerOf_drew_start (tag : Byte) (cur : Int × Int) (s : State) :
    answerOf (.ok, modifyBody (fun b => { b with col := cur.1, row := cur.2 }) ((start tag s).drew origin f ds)) =
      s.printed origin f ds cur := by
  have hseq : (start tag s).drew origin f ds =
      { s.drew origin f ds with seq := some { tag := tag, index := eventsOfAll s.cfg (textFrames origin f ds) } } := by
    rw [State.drew, wroteAll_start]; rfl
  rw [hseq, answerOf, answer_ok]
  simp only [State.drew, State.printed, modifyBody, State.answeredOk, wroteAll_rsp]

/-- What both variants answer when every transfer is `Ok`. -/
theorem printRequest_printed (htext : s.cfg.hasText = true) (hfont : fontOk f = true) (hidle : s.lstate = .idle)
    (ho : AlignedAs left f origin)
    (halign : drawnCells down str (0, 0) = [] ∨ (left.toNat % 8 = 0 ∧ f.gw % 8 = 0))
    (hok : transfersOk (transfersOfAll (textFrames origin f (drawnCells down str (0, 0)))) s) :
    printRequest tag f (printBody down origin f str) s =
      .next (s.printed origin f (drawnCells down str (0, 0)) (cursorAfter down str (0, 0))) := by
  have hcells : ∀ d ∈ drawnCells down str (0, 0), (origin d.2).1.toNat % 8 = 0 ∧ f.gw % 8 = 0 := by
    rcases halign with hnone | ⟨hl, hg⟩
    · simp [hnone]
    · exact fun d _ => ⟨(ho hg d.2).trans hl, hg⟩
  rw [printRequest_idle htext hfont hidle, printBody, printLoop_drew hcells (transfersOk_start tag hok)]
  exact congrArg Host.Outcome.next (answerOf_drew_start tag _ s)

/-- What both variants answer when they are misaligned and have something to draw. -/
theorem printRequest_misaligned (htext : s.cfg.hasText = true) (hfont : fontOk f = true) (hidle : s.lstate = .idle)
    (ho : AlignedAs left f origin) (hmis : left.toNat % 8 ≠ 0 ∨ f.gw % 8 ≠ 0)
    (hdraws : drawnCells down str (0, 0) ≠ []) :
    printRequest tag f (printBody down origin f str) s = .next (s.answeredFail .alignmentError) := by
  obtain ⟨last, hloop⟩ := printLoop_misaligned (s := start tag s) (ho.misaligned hmis) hdraws
  rw [printRequest_idle htext hfont hidle, printBody, hloop, answerOf, answer_fail _ Status.noConfusion]
  rfl

/-- Settles O43: the loop of the horizontal variant draws every cell whole; its origin is reduced arithmetic. -/
theorem printHResult : Obligations.PrintHResult :=
  ⟨fun _ left top f _ htext hfont hidle halign hok =>
      printRequest_printed htext hfont hidle (alignedAs_originH left top f) halign hok,
    fun _ _ _ _ _ => ⟨trunc16_toNat _, trunc16_toNat _⟩⟩

/-- Settles O44: as the horizontal variant, with the cell's origin and the line-feed of the vertical one. -/
theorem printVResult : Obligations.PrintVResult :=
  ⟨fun _ left top f _ htext hfont hidle halign hok =>
      printRequest_printed htext hfont hidle (alignedAs_originV left top f) halign hok,
    fun _ _ _ _ _ => ⟨trunc16_toNat _, trunc16_toNat _⟩⟩

/-- Settles O48: the loop stops before its first frame, and the answer writes the response frame alone. -/
theorem misalignedText : Obligations.MisalignedText := fun _ left top f _ htext hfont hidle hmis =>
  ⟨fun hdraws => ⟨_, printRequest_misaligned htext hfont hidle (alignedAs_originH left top f) hmis hdraws,
      rfl, rfl, rfl, rfl, rfl, rfl, rfl⟩,
    fun hdraws => ⟨_, printRequest_misaligned htext hfont hidle (alignedAs_originV left top f) hmis hdraws,
      rfl, rfl, rfl, rfl, rfl, rfl, rfl⟩⟩

end Sys2Proof.Machine

/-! The statuses (O39, O49, O50): what the gate answers outside `Idle`, which instruction ends with which status, and that
the status reported is the one of the transfers made. -/

namespace Sys2Proof.Machine

variable {i : Instr} {s t : State} {e e' e'' : Env} {st : Status} {q : Seq} {r : Status × State} {tag : Byte}

/-! ### The gate (R161, R273) -/

/-- A text request with its unit and a whole glyph table is refused by the gate alone. -/
theorem printRequest_not_idle {f : Font} (hw : (s.cfg.hasText && fontOk f) = true) (hl : s.lstate ≠ .idle) (g : Byte)
    (body : State → State) : printRequest g f body s = .next (s.answeredFail .sequenceError) := by
  obtain ⟨htext, hfont⟩ := (Bool.and_eq_true _ _).mp hw
  rw [printRequest, if_pos htext, if_pos hfont, gated_not_idle hl]

/-- Settles O39: every gated request meets the gate before anything else, once its contract of R23 is kept. -/
theorem gateRefusesOutsideIdle : Obligations.GateRefusesOutsideIdle := by
  intro i s hg hw hl
  cases i with
  | gateScanRange | updateCtrl1 | updateCtrl2 | border | patternFillPrimary | patternFillSecondary | dataEntryMode
  | ramBankSelect | selectTempSensor | readTemperature | softwareReset | masterActivation | boosterSoftStart | readUserId
  | nop | setHRange | setVRange | setStartAddress | resetFullRange | readRegion | refresh =>
    exact congrArg Host.Outcome.next (gated_not_idle hl)
  | writeRegion => rw [exec_writeRegion_gated hw, gated_not_idle hl]
  | printH | printV => exact printRequest_not_idle hw hl _ _
  | _ => cases hg

/-! ### The end of a busy-wait -/

/-- A turn of the busy-wait that ends the request has polled the line deasserted. -/
theorem waitTurn_ended (hs : s.seq = some q) (hend : (waitTurn tag s).seq = none) :
    waitTurn tag s = afterWait tag s.polledReady := by
  cases hb : busyLevel s with
  | false => exact waitTurn_ready hb tag
  | true =>
    rw [waitTurn_busy hb, polledBusy_seq hs] at hend
    cases hend

/-! ### Which instruction ends with which status (R325) -/

theorem refreshBody_not_misaligned (s : State) : (refreshBody s).1 ≠ .alignmentError :=
  andThen_status (frameW_status _ _ s) fun _ => andThen_status (frameW_status _ _ _) fun _ => frameW_status _ _ _

theorem exec_busyWait_status (h : exec .busyWait s = .next t) (hend : t.seq = none) : t.rsp.status = .ok := by
  obtain rfl := Host.Outcome.next.inj h
  rw [waitTurn_ended (start_seq s tagBusyWait) hend]
  rfl

theorem exec_init_status (h : exec .init s = .next t) (hend : t.seq = none) :
    t.rsp.status = .ok ∨ ∃ code, t.rsp.status = .transportError code := by
  rcases exec_init_lstate h with ⟨-, hok, -⟩ | ⟨-, hfailed, -⟩ | ⟨⟨q, hq, -⟩, -⟩
  · exact .inl hok
  · exact .inr hfailed
  · cases hend.symm.trans hq

theorem exec_refresh_status (hidle : s.lstate = .idle) (h : exec .refresh s = .next t) (hend : t.seq = none) :
    t.rsp.status = .ok ∨ ∃ code, t.rsp.status = .transportError code := by
  rw [exec_refresh_idle hidle] at h
  obtain rfl := Host.Outcome.next.inj h
  obtain ⟨n, hn⟩ := refreshBody_seq s.refreshStarted
  rcases (Ran.refreshBody s.refreshStarted).ok_or_failed (refreshBody_not_misaligned _) with hst | ⟨code, hst⟩
  · rw [if_pos hst] at hend ⊢
    rw [waitTurn_ended hn hend]
    exact .inl rfl
  · rw [hst, if_neg Status.noConfusion]
    exact .inr ⟨code, answer_status _ _⟩

/-- How a lifecycle request ends: refused by the gate, `Ok`, or with a failed transfer where it makes transfers. -/
theorem exec_lifecycle_status (hi : isLifecycle i = true) (h : exec i s = .next t) (hend : t.seq = none) :
    (isGated i = true ∧ s.lstate ≠ .idle ∧ t.rsp.status = .sequenceError) ∨ t.rsp.status = .ok ∨
      ((∃ code, t.rsp.status = .transportError code) ∧ i ≠ .reset ∧ i ≠ .busyWait) := by
  rcases isLifecycle_cases hi with rfl | rfl | rfl | rfl
  case inl =>
    rw [resetResult] at h
    obtain rfl := Host.Outcome.next.inj h
    exact .inr (.inl rfl)
  case inr.inl => exact .inr ((exec_init_status h hend).imp_right (⟨·, by decide, by decide⟩))
  case inr.inr.inl =>
    by_cases hidle : s.lstate = .idle
    · exact .inr ((exec_refresh_status hidle h hend).imp_right (⟨·, by decide, by decide⟩))
    · rw [exec_refresh_not_idle hidle] at h
      obtain rfl := Host.Outcome.next.inj h
      exact .inl ⟨rfl, hidle, rfl⟩
  case inr.inr.inr => exact .inr (.inl (exec_busyWait_status h hend))

/-- Settles O49: outside the lifecycle the status is the gate's or that of the frames, which never end in
`SequenceError`. -/
theorem statusTable : Obligations.StatusTable := by
  intro i s t hc h hend
  cases hi : isLifecycle i with
  | false =>
    have hne : i ≠ .reset ∧ i ≠ .busyWait := by constructor <;> rintro rfl <;> cases hi
    rcases exec_cases hi h with ⟨hg, hl, rfl⟩ | ⟨r, hran, -, halign, rfl⟩
    · exact ⟨fun _ => ⟨hg, hl⟩, nofun, nofun⟩
    · rw [answerOf, answer_status]
      exact ⟨fun hst => absurd hst hran.noSeq, halign hc, fun _ _ => hne⟩
  | true =>
    rcases exec_lifecycle_status hi h hend with ⟨hg, hl, hst⟩ | hst | ⟨⟨code, hst⟩, hne⟩ <;> rw [hst]
    · exact ⟨fun _ => ⟨hg, hl⟩, nofun, nofun⟩
    · exact ⟨nofun, nofun, nofun⟩
    · exact ⟨nofun, nofun, fun _ _ => hne⟩

/-! ### The status of the transfers made (R322, R333) -/

/-- `st` is the status of the transfers made between the environments `e` and `e'`: `Ok` where all of them were, a
transport's failure where it was that of the last one, the first that failed. -/
structure Reported (e : Env) (st : Status) (e' : Env) : Prop where
  script : e'.xfer = e.xfer
  pos    : e.xferPos ≤ e'.xferPos
  ok     : st = .ok → ∀ k, e.xferPos ≤ k → k < e'.xferPos → e.transfer k = .ok
  failed : ∀ code, st = .transportError code →
    ∃ k, e.xferPos ≤ k ∧ e'.xferPos = k + 1 ∧ e.transfer k = .fail code ∧
      ∀ j, e.xferPos ≤ j → j < k → e.transfer j = .ok

/-- The status of a sequence of frames is that of its transfers. -/
theorem Ran.reported (h : Ran s r) : Reported s.env r.1 r.2.env := ⟨h.script, h.pos, h.ok, h.failed⟩

/-- No transfer was made. -/
theorem Reported.ofNone (hst : ∀ code, st ≠ .transportError code) (hx : e'.xfer = e.xfer) (hp : e'.xferPos = e.xferPos) :
    Reported e st e' :=
  ⟨hx, hp.ge, fun _ _ h1 h2 => absurd h2 (by omega), fun code h => absurd h (hst code)⟩

theorem Env.transfer_congr (h : e'.xfer = e.xfer) (k : Nat) : e'.transfer k = e.transfer k := by
  rw [Env.transfer, Env.transfer, h]

/-- What follows transfers that were all `Ok` decides the status. -/
theorem Reported.trans (h1 : Reported e .ok e') (h2 : Reported e' st e'') : Reported e st e'' := by
  have hsame : ∀ k, e'.transfer k = e.transfer k := Env.transfer_congr h1.script
  have hpos := h1.pos
  have hbefore : ∀ k, (∀ j, e'.xferPos ≤ j → j < k → e.transfer j = .ok) →
      ∀ j, e.xferPos ≤ j → j < k → e.transfer j = .ok := fun k hlater j hj hjk =>
    (Nat.lt_or_ge j e'.xferPos).elim (h1.ok rfl j hj) fun hge => hlater j hge hjk
  refine ⟨h2.script.trans h1.script, hpos.trans h2.pos, fun hst => ?ok, fun code hst => ?failed⟩
  case ok => exact hbefore _ fun j hj hjk => (hsame j).symm.trans (h2.ok hst j hj hjk)
  case failed =>
    obtain ⟨k, hk, hlast, hfail, hall⟩ := h2.failed code hst
    exact ⟨k, hpos.trans hk, hlast, (hsame k).symm.trans hfail,
      hbefore k fun j hj hjk => (hsame j).symm.trans (hall j hj hjk)⟩

/-! ### The instruction that ends reports its transfers -/

/-- The end of a request writes the status and makes no transfer (R320). -/
theorem Reported.answer (h : Reported e st t.env) : Reported e (answer st t).rsp.status (answer st t).env := by
  rw [answer_status, answer_env]
  exact h

/-- `INIT` from the end of its busy-wait reports the frames of the configuration (R263). -/
theorem initConfigure_reported (s : State) : Reported s.env (initConfigure s).rsp.status (initConfigure s).env := by
  have hr : Reported s.env _ _ := (Ran.configureBody (setLState .configuring s)).reported
  unfold initConfigure
  dsimp only
  split
  · next hst =>
    rw [hst] at hr
    exact Reported.answer (t := setLState .idle _) hr
  · exact Reported.answer (t := setLState .poweredOff _) hr

/-- Only `INIT` makes transfers after its busy-wait (R263, R265, R266). -/
theorem afterWait_reported (tag : Byte) (s : State) : Reported s.env (afterWait tag s).rsp.status (afterWait tag s).env := by
  unfold afterWait
  split_ifs
  · exact initConfigure_reported s
  · exact .ofNone nofun rfl rfl
  · exact .ofNone nofun rfl rfl

/-- A turn of the busy-wait that ends the request: the poll makes no transfer. -/
theorem waitTurn_reported (hs : s.seq = some q) (hend : (waitTurn tag s).seq = none) :
    Reported s.env (waitTurn tag s).rsp.status (waitTurn tag s).env := by
  rw [waitTurn_ended hs hend]
  have hpoll : Reported s.env .ok s.polledReady.env := .ofNone nofun rfl rfl
  exact hpoll.trans (afterWait_reported tag s.polledReady)

/-- Frames ran; then the request came to its busy-wait and ended there, or it ended with their failure. -/
theorem Reported.waitTurn_or_answer {l : LState} (hr : Reported e r.1 r.2.env) (hs : r.2.seq = some q)
    (ht : t = if r.1 = .ok then waitTurn tag r.2 else Machine.answer r.1 (setLState l r.2)) (hend : t.seq = none) :
    Reported e t.rsp.status t.env := by
  subst ht
  split at hend
  · next hst =>
    rw [if_pos hst]
    rw [hst] at hr
    exact hr.trans (waitTurn_reported hs hend)
  · next hst =>
    rw [if_neg hst]
    exact Reported.answer (t := setLState l r.2) hr

/-- `INIT` runs the frame of the software reset before its busy-wait (R263). -/
theorem exec_init_reported (h : exec .init s = .next t) (hend : t.seq = none) : Reported s.env t.rsp.status t.env := by
  obtain ⟨n, hn⟩ := initStart_seq s
  exact (initStart_ran s).reported.waitTurn_or_answer hn (Host.Outcome.next.inj h).symm hend

/-- `REFRESH` in `Idle` runs three frames before its busy-wait (R265). -/
theorem exec_refresh_reported (hidle : s.lstate = .idle) (h : exec .refresh s = .next t) (hend : t.seq = none) :
    Reported s.env t.rsp.status t.env := by
  rw [exec_refresh_idle hidle] at h
  obtain ⟨n, hn⟩ := refreshBody_seq s.refreshStarted
  exact (Ran.refreshBody s.refreshStarted).reported.waitTurn_or_answer hn (Host.Outcome.next.inj h).symm hend

/-- The gate's refusal makes no transfer (R161). -/
theorem answeredFail_sequenceError_reported (s : State) :
    Reported s.env (s.answeredFail .sequenceError).rsp.status (s.answeredFail .sequenceError).env := .ofNone nofun rfl rfl

/-- Every instruction that ends in the step that starts it reports its transfers. -/
theorem exec_reported (h : exec i s = .next t) (hend : t.seq = none) : Reported s.env t.rsp.status t.env := by
  cases hi : isLifecycle i with
  | false =>
    rcases exec_cases hi h with ⟨-, -, rfl⟩ | ⟨r, hran, -, -, rfl⟩
    · exact answeredFail_sequenceError_reported s
    · exact hran.reported.answer
  | true =>
    rcases isLifecycle_cases hi with rfl | rfl | rfl | rfl
    case inl =>
      rw [resetResult] at h
      obtain rfl := Host.Outcome.next.inj h
      exact .ofNone nofun rfl rfl
    case inr.inl => exact exec_init_reported h hend
    case inr.inr.inl =>
      by_cases hidle : s.lstate = .idle
      · exact exec_refresh_reported hidle h hend
      · rw [exec_refresh_not_idle hidle] at h
        obtain rfl := Host.Outcome.next.inj h
        exact answeredFail_sequenceError_reported s
    case inr.inr.inr =>
      obtain rfl := Host.Outcome.next.inj h
      exact waitTurn_reported (s := start tagBusyWait s) rfl hend

/-- Settles O50: a request ends in the step that starts it, or in a turn of its busy-wait. -/
theorem firstFailureReported : Obligations.FirstFailureReported := by
  intro s t hrun hend
  have hr : Reported s.env t.rsp.status t.env := by
    rcases hrun with ⟨i, h⟩ | ⟨q, hs, h⟩
    · exact exec_reported h hend
    · obtain rfl := resumeWait_next h
      exact waitTurn_reported hs hend
  exact ⟨hr.ok, hr.failed⟩

end Sys2Proof.Machine
